-- ==== Sys2Proof/Word.lean ====
section
/-! DEFINITION. The word types of the SKC-2000 (00_scope.md R6, R10). The manual numbers bits from the
most significant (bit 0); a `BitVec` numbers them from the least significant, so bit `n` of a 32 bit word of
the manual is `getLsbD (31 - n)`. -/

namespace Sys2Proof

/-- A fullword or a 32 bit register (R14). -/
abbrev Word32 := BitVec 32

/-- A halfword, the addressable unit of memory (20_memory.md R60). -/
abbrev Half := BitVec 16

/-- A halfword address, a program counter value or an index register value: 18 bits (R6). -/
abbrev Addr := BitVec 18

/-- Half of a halfword: what one listed cell of the model's memory holds (log 5). -/
abbrev Byte := BitVec 8

end Sys2Proof
end

