-- ==== Sys2Proof/Config.lean ====
section
/-! DEFINITION. The parameters of an implementation (00_scope.md R7, R8) as plain data, their baseline
values, and the values the spec leaves open, as opaque constants that nothing can evaluate. -/

namespace Sys2Proof

/-- An interval of halfword addresses, both ends included. -/
structure AddrRange where
  lo : Nat
  hi : Nat
deriving DecidableEq, Repr

/-- The configuration of a machine (R7, R8): constant during execution. -/
structure Config where
  /-- FAST_LO, first address of the Fast Scratchpad (R7). -/
  fastLo : Nat
  /-- FAST_HI, last address of the Fast Scratchpad (R7). -/
  fastHi : Nat
  /-- CORE_LO, first address of core memory (R7). -/
  coreLo : Nat
  /-- SHORT_PIVOT, the address of the 10 bit short address 512 (30_encoding.md R112). -/
  shortPivot : Addr
  /-- PRESENT: the addresses with memory behind them (20_memory.md R73). -/
  present : List AddrRange
  /-- PROTECTED: the write protected addresses (20_memory.md R75). -/
  protect : List AddrRange
  /-- TRANSFER: the interrupt transfer location of each level (R7, 60_exceptions.md R463). -/
  transferAt : Vector Addr 16
  /-- RETURN: the return address location of each level (R7, 60_exceptions.md R463). -/
  returnAt : Vector Addr 16
  /-- SHORT_INDEXED_SCALE, 1 or 2 (30_encoding.md R111). -/
  shortIndexedScale : Addr
  /-- ICL_SIGNED (45_index.md R352). -/
  iclSigned : Bool
  /-- MR_ONE_ALLOWS (60_exceptions.md R466). -/
  mrOneAllows : Bool
  /-- INT_HOLDOFF (60_exceptions.md R472). -/
  intHoldoff : Nat
  /-- The exponent field of FZERO32; its mantissa bits are zero (42_float.md R277). -/
  fzeroExp32 : BitVec 8
  /-- The exponent field of FZERO64; its mantissa bits are zero (42_float.md R277). -/
  fzeroExp64 : BitVec 8
  /-- CFX_MIN, the lower bound of CFX's input (47_nonmem.md R410; log 30). -/
  cfxMin : ℚ
deriving DecidableEq, Repr

/-- The operations whose rounding the source leaves to a parameter function (42_float.md R262). -/
inductive FloatOp where
  | fadd32
  | fsub32
  | fdiv
  | fadd64
  | fsub64
  | cxf
deriving DecidableEq, Repr

/-- `draw(N)` of R12: the n-th value the source does not determine. UNVERIFIED, safe: it has no body, so a
claim holds whatever it is (log 9). -/
opaque Config.draw : Nat → Word32

/-- Whether a rounding picks the upper of the two neighbours, as a function of the operands (R262, D15).
Safe: it has no body (log 10). -/
opaque Config.roundUp : FloatOp → BitVec 64 → BitVec 64 → Bool

/-- Whether FXDIV picks the upper neighbour of an inexact quotient (41_fixed_arith.md R223, D14). Safe (log 10). -/
opaque Config.fxdivUp : BitVec 64 → Word32 → Bool

/-- Whether FXDIVH picks the upper neighbour of an inexact quotient (R224, D14). Safe (log 10). -/
opaque Config.fxdivhUp : Word32 → Half → Bool

/-- FXDIVH where A bits 16..31 are not all zero, for which R224 gives no law. Safe (log 21). -/
opaque Config.fxdivhOpen : Word32 → Half → Half

/-- Whether CFX picks the upper neighbour of an inexact result (47_nonmem.md R410, D31). Safe (log 10). -/
opaque Config.cfxUp : BitVec 64 → Bool

/-- ICL_SIGNED, OPEN in 92_eei_decisions.md D17. Safe: it has no body (log 20). -/
opaque Config.openIclSigned : Bool

/-- The transfer locations of Table 2-3, level 0 first (60_exceptions.md R463). -/
def transferTable : Vector Addr 16 :=
  #v[32672#18, 32674#18, 32676#18, 32678#18, 32680#18, 32682#18, 32684#18, 32686#18,
    32688#18, 32690#18, 32692#18, 32694#18, 32696#18, 32698#18, 32700#18, 32702#18]

/-- The return address locations of Table 2-3, level 0 first (60_exceptions.md R463). -/
def returnTable : Vector Addr 16 :=
  #v[32736#18, 32738#18, 32740#18, 32742#18, 32744#18, 32746#18, 32748#18, 32750#18,
    32752#18, 32754#18, 32756#18, 32758#18, 32760#18, 32762#18, 32764#18, 32766#18]

/-- The machine of R7 and R8 with the Fast Scratchpad and one core module of 16384 halfwords at given places, and
PROTECTED as in the default start state of 95_test_vectors.md section 0. DEDUCED, unsafe for another configuration
(log 6). -/
def Config.oneModule (fastLo fastHi coreLo : Nat) : Config where
  fastLo := fastLo
  fastHi := fastHi
  coreLo := coreLo
  shortPivot := 16384#18
  present := [⟨fastLo, fastHi⟩, ⟨coreLo, coreLo + 16383⟩]
  protect := [⟨24576, 32703⟩]
  transferAt := transferTable
  returnAt := returnTable
  shortIndexedScale := 1#18
  iclSigned := Config.openIclSigned
  mrOneAllows := true
  intHoldoff := 2
  fzeroExp32 := 0#8
  fzeroExp64 := 0#8
  cfxMin := mkRat 1 (2 ^ 56)

/-- The baseline machine of R7 and R8. -/
def Config.baseline : Config := Config.oneModule 15872 16383 16384

end Sys2Proof
end

