-- ==== Sys2Proof/Syntax.lean ====
section
/-! DEFINITION. The instructions of the SKC-2000: one constructor for each row of spec/opcode_table.json.

A name ends in `S` for the 16 bit (short) row and in `L` for the 32 bit (long) row; an `h` before it is a halfword
variant and an `r` a return to memory variant (X1 = 7 in the word, so X1 is no field of it; 30_encoding.md R117).
A SHORT row of a halfword variant (LDAH, ADUH, ADUHR, ... in 16 bits) is only another name of the base row's words,
told apart by SR5 when the instruction executes and never by the decoder (R116, R123), so it has no constructor of
its own: `ldaS` is short LDA and short LDAH (log 24). In the long format bit 15 of the word chooses between `ldaL`
and `ldahL`; where I = 1 the last word of the address chain decides the operand width.

Fields: `x1`, `x2` index designators, `i` indirect, `m` immediate, `h` bit 15 where it is not part of the operation
code, `m7`, `m16`, `m18` address fields, `j` a count, `f` a flag selector or register number (R101 to R108). -/

namespace Sys2Proof

/-- An instruction, as its word reads (30_encoding.md R100 to R109). -/
inductive Instr where
  /-- Enable Memory Interrupts (EMI, R403). -/
  | emi
  /-- Disable Program Interrupts (DPI, R404). -/
  | dpi
  /-- Disable Memory Interrupts (DMI, R405). -/
  | dmi
  /-- Enable Program Interrupts (EPI, R406). -/
  | epi
  /-- Halt (HLT, R407). -/
  | hlt
  /-- Set Selected Program Flags (SET, R408). -/
  | setf (f : BitVec 4)
  /-- Reset Selected Program Flag (RST, R409). -/
  | rstf (f : BitVec 4)
  /-- Convert Floating Point To Fixed Point (CFX, R410). -/
  | cfx
  /-- Convert Fixed Point To Floating Point (CXF, R411). -/
  | cxf
  /-- Exchange A And B (EAB, R412). -/
  | eab
  /-- Set Halfword Mode (SHM, R413). -/
  | shm
  /-- Reset Halfword Mode (RHM, R414). -/
  | rhm
  /-- Load Index Register From A Register (LXA, R415). -/
  | lxa (f : BitVec 4)
  /-- No Operation (NOP, R402). -/
  | nop
  /-- Shift A,B Left Logically (SLLD, R331). -/
  | slld (x1 : BitVec 3) (j : BitVec 5)
  /-- Shift A,B Left Circularly (SLCD, R332). -/
  | slcd (x1 : BitVec 3) (j : BitVec 5)
  /-- Shift A Left Logically (SLL, R333). -/
  | sll (x1 : BitVec 3) (j : BitVec 5)
  /-- Shift A,B Right Logically (SRLD, R334). -/
  | srld (x1 : BitVec 3) (j : BitVec 5)
  /-- Shift A,B Right Algebraically (SRAD, R335). -/
  | srad (x1 : BitVec 3) (j : BitVec 5)
  /-- Shift A,B Right Circularly (SRCD, R336). -/
  | srcd (x1 : BitVec 3) (j : BitVec 5)
  /-- Shift A Right Algebraically (SRA, R337). -/
  | sra (x1 : BitVec 3) (j : BitVec 5)
  /-- Shift A Right Circularly (SRC, R338). -/
  | src (x1 : BitVec 3) (j : BitVec 5)
  /-- Move Fast To Main (MFM, R453). -/
  | mfm (x1 : BitVec 3) (j : BitVec 7)
  /-- Move Main To Fast (MMF, R452). -/
  | mmf (x1 : BitVec 3) (j : BitVec 7)
  /-- Jump Unconditional, relative (JRU, R371). -/
  | jru (p : Bool) (m7 : BitVec 7)
  /-- Jump If A Not Equal Zero, relative (JRN, R372). -/
  | jrn (p : Bool) (m7 : BitVec 7)
  /-- Jump If A Greater Than Or Equal To Zero, relative (JRG, R373). -/
  | jrg (p : Bool) (m7 : BitVec 7)
  /-- Jump If A Less Than Zero, relative (JRL, R374). -/
  | jrl (p : Bool) (m7 : BitVec 7)
  /-- Jump Unconditional To Subroutine (JS, R382). -/
  | js (x1 : BitVec 3) (m18 : BitVec 18)
  /-- Jump On Program Flag (JGF, R379). -/
  | jgf (f : BitVec 4) (m18 : BitVec 18)
  /-- Jump On Status Bit (JGS, R380). -/
  | jgs (n : BitVec 4) (m18 : BitVec 18)
  /-- Jump On Switch (JGW, R381). -/
  | jgw (sw : BitVec 2) (m18 : BitVec 18)
  /-- Jump Unconditional, absolute (JGU, R375). -/
  | jgu (m18 : BitVec 18)
  /-- Jump If A Not Equal Zero, absolute (JAN, R376). -/
  | jan (m18 : BitVec 18)
  /-- Jump If A Greater Than Or Equal To Zero, absolute (JAG, R377). -/
  | jag (m18 : BitVec 18)
  /-- Jump If A Less Than Zero, absolute (JAL, R378). -/
  | jal (m18 : BitVec 18)
  /-- Data Output From A Register (DOA, R433). -/
  | doa (c : Bool) (dc : BitVec 6) (k : Bool)
  /-- Data Input To A Register (DIA, R434). -/
  | dia (c : Bool) (dc : BitVec 6) (k : Bool)
  /-- Data Output From Memory (DOM, R435). -/
  | dom (c : Bool) (dc : BitVec 6) (i : Bool) (k : Bool) (m16 : BitVec 16)
  /-- Data Input To Memory (DIM, R436). -/
  | dim (c : Bool) (dc : BitVec 6) (i : Bool) (k : Bool) (m16 : BitVec 16)
  /-- Load the A Register, short (LDA, R161, R162). -/
  | ldaS (x1 : BitVec 3) (m7 : BitVec 7)
  /-- Load the A Register, bit 15 = 0, long (LDA, R161). -/
  | ldaL (x1 : BitVec 3) (x2 : BitVec 4) (i : Bool) (m : Bool) (m16 : BitVec 16)
  /-- Load the A Register with Halfword, bit 15 = 1, long (LDAH, R162). -/
  | ldahL (x1 : BitVec 3) (x2 : BitVec 4) (i : Bool) (m : Bool) (m16 : BitVec 16)
  /-- Load the B Register, short (LDB, R163, R164). -/
  | ldbS (x1 : BitVec 3) (m7 : BitVec 7)
  /-- Load the B Register, bit 15 = 0, long (LDB, R163). -/
  | ldbL (x1 : BitVec 3) (x2 : BitVec 4) (i : Bool) (m : Bool) (m16 : BitVec 16)
  /-- Load the B Register with Halfword, bit 15 = 1, long (LDBH, R164). -/
  | ldbhL (x1 : BitVec 3) (x2 : BitVec 4) (i : Bool) (m : Bool) (m16 : BitVec 16)
  /-- Store the A Register, short (STA, R169, R170). -/
  | staS (x1 : BitVec 3) (m7 : BitVec 7)
  /-- Store the A Register, bit 15 = 0, long (STA, R169). -/
  | staL (x1 : BitVec 3) (x2 : BitVec 4) (i : Bool) (m : Bool) (m16 : BitVec 16)
  /-- Store the A Register with Halfword, bit 15 = 1, long (STAH, R170). -/
  | stahL (x1 : BitVec 3) (x2 : BitVec 4) (i : Bool) (m : Bool) (m16 : BitVec 16)
  /-- Store the B Register, short (STB, R171, R172). -/
  | stbS (x1 : BitVec 3) (m7 : BitVec 7)
  /-- Store the B Register, bit 15 = 0, long (STB, R171). -/
  | stbL (x1 : BitVec 3) (x2 : BitVec 4) (i : Bool) (m : Bool) (m16 : BitVec 16)
  /-- Store the B Register with Halfword, bit 15 = 1, long (STBH, R172). -/
  | stbhL (x1 : BitVec 3) (x2 : BitVec 4) (i : Bool) (m : Bool) (m16 : BitVec 16)
  /-- Store Index Register, short (STX, R174). -/
  | stxS (x1 : BitVec 3) (m7 : BitVec 7)
  /-- Store Index Register, long (STX, R174). -/
  | stxL (x1 : BitVec 3) (x2 : BitVec 4) (i : Bool) (m : Bool) (h : Bool) (m16 : BitVec 16)
  /-- Load Index Register, short (LDX, R165). -/
  | ldxS (x1 : BitVec 3) (m7 : BitVec 7)
  /-- Load Index Register, long (LDX, R165). -/
  | ldxL (x1 : BitVec 3) (x2 : BitVec 4) (i : Bool) (m : Bool) (h : Bool) (m16 : BitVec 16)
  /-- Load the A Register with the Effective Address, short (LAE, R166). -/
  | laeS (x1 : BitVec 3) (m7 : BitVec 7)
  /-- Load the A Register with the Effective Address, long (LAE, R166). -/
  | laeL (x1 : BitVec 3) (x2 : BitVec 4) (i : Bool) (m : Bool) (h : Bool) (m16 : BitVec 16)
  /-- Store A Register Halfword, short (STH, R173). -/
  | sthS (x1 : BitVec 3) (m7 : BitVec 7)
  /-- Store A Register Halfword, long (STH, R173). -/
  | sthL (x1 : BitVec 3) (x2 : BitVec 4) (i : Bool) (m : Bool) (h : Bool) (m16 : BitVec 16)
  /-- Return Address, short (RTA, R307). -/
  | rtaS (x1 : BitVec 3) (m7 : BitVec 7)
  /-- Return Address, long (RTA, R307). -/
  | rtaL (x1 : BitVec 3) (x2 : BitVec 4) (i : Bool) (m : Bool) (h : Bool) (m16 : BitVec 16)
  /-- Skip On A Register Masked, short (SAM, R308). -/
  | samS (x1 : BitVec 3) (m7 : BitVec 7)
  /-- Skip On A Register Masked, long (SAM, R308). -/
  | samL (x1 : BitVec 3) (x2 : BitVec 4) (i : Bool) (m : Bool) (h : Bool) (m16 : BitVec 16)
  /-- Test Index Register For Non-Equal And Skip, short (ICN, R351). -/
  | icnS (x1 : BitVec 3) (m7 : BitVec 7)
  /-- Test Index Register For Non-Equal And Skip, long (ICN, R351). -/
  | icnL (x1 : BitVec 3) (x2 : BitVec 4) (i : Bool) (m : Bool) (m16 : BitVec 16)
  /-- Test Index Register For Less Than And Skip, long (ICL, R352). -/
  | iclL (x1 : BitVec 3) (x2 : BitVec 4) (i : Bool) (m : Bool) (m16 : BitVec 16)
  /-- Modify Index Register By Negative Increment, short (IMN, R353). -/
  | imnS (x1 : BitVec 3) (m7 : BitVec 7)
  /-- Modify Index Register By Negative Increment, long (IMN, R353). -/
  | imnL (x1 : BitVec 3) (x2 : BitVec 4) (i : Bool) (m : Bool) (m16 : BitVec 16)
  /-- Modify Index Register By Positive Increment, long (IMP, R354). -/
  | impL (x1 : BitVec 3) (x2 : BitVec 4) (i : Bool) (m : Bool) (m16 : BitVec 16)
  /-- Load Status Register, long (LDS, R167). -/
  | ldsL (x1 : BitVec 3) (x2 : BitVec 4) (i : Bool) (m : Bool) (m16 : BitVec 16)
  /-- Store Status Register, long (STS, R176). -/
  | stsL (x1 : BitVec 3) (x2 : BitVec 4) (i : Bool) (m : Bool) (m16 : BitVec 16)
  /-- Store Interrupt Mask Register, long (STI, R175). -/
  | stiL (x1 : BitVec 3) (x2 : BitVec 4) (i : Bool) (m : Bool) (m16 : BitVec 16)
  /-- Load Interrupt Mask Register, long (LDI, R168). -/
  | ldiL (x1 : BitVec 3) (x2 : BitVec 4) (i : Bool) (m : Bool) (m16 : BitVec 16)
  /-- Add Upper, short (ADU, R203, R204). -/
  | aduS (x1 : BitVec 3) (m7 : BitVec 7)
  /-- Add Upper, bit 15 = 0, long (ADU, R203). -/
  | aduL (x1 : BitVec 3) (x2 : BitVec 4) (i : Bool) (m : Bool) (m16 : BitVec 16)
  /-- Add Upper Halfword, bit 15 = 1, long (ADUH, R204). -/
  | aduhL (x1 : BitVec 3) (x2 : BitVec 4) (i : Bool) (m : Bool) (m16 : BitVec 16)
  /-- Add Upper and Return, short (ADUR, R205, R206). -/
  | adurS (m7 : BitVec 7)
  /-- Add Upper and Return, bit 15 = 0, long (ADUR, R205). -/
  | adurL (x2 : BitVec 4) (i : Bool) (m : Bool) (m16 : BitVec 16)
  /-- Add Upper Halfword and Return, bit 15 = 1, long (ADUHR, R206). -/
  | aduhrL (x2 : BitVec 4) (i : Bool) (m : Bool) (m16 : BitVec 16)
  /-- Add Lower, short (ADL, R207, R208). -/
  | adlS (x1 : BitVec 3) (m7 : BitVec 7)
  /-- Add Lower, bit 15 = 0, long (ADL, R207). -/
  | adlL (x1 : BitVec 3) (x2 : BitVec 4) (i : Bool) (m : Bool) (m16 : BitVec 16)
  /-- Add Lower Halfword, bit 15 = 1, long (ADLH, R208). -/
  | adlhL (x1 : BitVec 3) (x2 : BitVec 4) (i : Bool) (m : Bool) (m16 : BitVec 16)
  /-- Add Lower and Return, short (ADLR, R209, R210). -/
  | adlrS (m7 : BitVec 7)
  /-- Add Lower and Return, bit 15 = 0, long (ADLR, R209). -/
  | adlrL (x2 : BitVec 4) (i : Bool) (m : Bool) (m16 : BitVec 16)
  /-- Add Lower Halfword and Return, bit 15 = 1, long (ADLHR, R210). -/
  | adlhrL (x2 : BitVec 4) (i : Bool) (m : Bool) (m16 : BitVec 16)
  /-- Subtract Upper, short (SBU, R211, R212). -/
  | sbuS (x1 : BitVec 3) (m7 : BitVec 7)
  /-- Subtract Upper, bit 15 = 0, long (SBU, R211). -/
  | sbuL (x1 : BitVec 3) (x2 : BitVec 4) (i : Bool) (m : Bool) (m16 : BitVec 16)
  /-- Subtract Upper Halfword, bit 15 = 1, long (SBUH, R212). -/
  | sbuhL (x1 : BitVec 3) (x2 : BitVec 4) (i : Bool) (m : Bool) (m16 : BitVec 16)
  /-- Subtract Upper and Return, short (SBUR, R213, R214). -/
  | sburS (m7 : BitVec 7)
  /-- Subtract Upper and Return, bit 15 = 0, long (SBUR, R213). -/
  | sburL (x2 : BitVec 4) (i : Bool) (m : Bool) (m16 : BitVec 16)
  /-- Subtract Upper Halfword and Return, bit 15 = 1, long (SBUHR, R214). -/
  | sbuhrL (x2 : BitVec 4) (i : Bool) (m : Bool) (m16 : BitVec 16)
  /-- Subtract Lower, short (SBL, R215, R216). -/
  | sblS (x1 : BitVec 3) (m7 : BitVec 7)
  /-- Subtract Lower, bit 15 = 0, long (SBL, R215). -/
  | sblL (x1 : BitVec 3) (x2 : BitVec 4) (i : Bool) (m : Bool) (m16 : BitVec 16)
  /-- Subtract Lower Halfword, bit 15 = 1, long (SBLH, R216). -/
  | sblhL (x1 : BitVec 3) (x2 : BitVec 4) (i : Bool) (m : Bool) (m16 : BitVec 16)
  /-- Subtract Lower and Return, short (SBLR, R217, R218). -/
  | sblrS (m7 : BitVec 7)
  /-- Subtract Lower and Return, bit 15 = 0, long (SBLR, R217). -/
  | sblrL (x2 : BitVec 4) (i : Bool) (m : Bool) (m16 : BitVec 16)
  /-- Subtract Lower Halfword and Return, bit 15 = 1, long (SBLHR, R218). -/
  | sblhrL (x2 : BitVec 4) (i : Bool) (m : Bool) (m16 : BitVec 16)
  /-- Multiply Fixed Point, short (MUL, R219, R220). -/
  | mulS (x1 : BitVec 3) (m7 : BitVec 7)
  /-- Multiply Fixed Point, bit 15 = 0, long (MUL, R219). -/
  | mulL (x1 : BitVec 3) (x2 : BitVec 4) (i : Bool) (m : Bool) (m16 : BitVec 16)
  /-- Multiply Fixed Point Halfword, bit 15 = 1, long (MULH, R220). -/
  | mulhL (x1 : BitVec 3) (x2 : BitVec 4) (i : Bool) (m : Bool) (m16 : BitVec 16)
  /-- Multiply Fixed Point and Return, short (MULR, R221, R222). -/
  | mulrS (m7 : BitVec 7)
  /-- Multiply Fixed Point and Return, bit 15 = 0, long (MULR, R221). -/
  | mulrL (x2 : BitVec 4) (i : Bool) (m : Bool) (m16 : BitVec 16)
  /-- Multiply Fixed Point Halfword and Return, bit 15 = 1, long (MULHR, R222). -/
  | mulhrL (x2 : BitVec 4) (i : Bool) (m : Bool) (m16 : BitVec 16)
  /-- Divide Fixed Point, short (DVD, R223, R224). -/
  | dvdS (x1 : BitVec 3) (m7 : BitVec 7)
  /-- Divide Fixed Point, bit 15 = 0, long (DVD, R223). -/
  | dvdL (x1 : BitVec 3) (x2 : BitVec 4) (i : Bool) (m : Bool) (m16 : BitVec 16)
  /-- Divide Fixed Point Halfword, bit 15 = 1, long (DVDH, R224). -/
  | dvdhL (x1 : BitVec 3) (x2 : BitVec 4) (i : Bool) (m : Bool) (m16 : BitVec 16)
  /-- Divide Fixed Point and Return, short (DVDR, R225, R226). -/
  | dvdrS (m7 : BitVec 7)
  /-- Divide Fixed Point and Return, bit 15 = 0, long (DVDR, R225). -/
  | dvdrL (x2 : BitVec 4) (i : Bool) (m : Bool) (m16 : BitVec 16)
  /-- Divide Fixed Point Halfword and Return, bit 15 = 1, long (DVDHR, R226). -/
  | dvdhrL (x2 : BitVec 4) (i : Bool) (m : Bool) (m16 : BitVec 16)
  /-- Add Floating Point, short (ADF, R263). -/
  | adfS (x1 : BitVec 3) (m7 : BitVec 7)
  /-- Add Floating Point, long (ADF, R263). -/
  | adfL (x1 : BitVec 3) (x2 : BitVec 4) (i : Bool) (m : Bool) (m16 : BitVec 16)
  /-- Add Floating Point and Return, short (ADFR, R264). -/
  | adfrS (m7 : BitVec 7)
  /-- Add Floating Point and Return, long (ADFR, R264). -/
  | adfrL (x2 : BitVec 4) (i : Bool) (m : Bool) (m16 : BitVec 16)
  /-- Subtract Floating Point, short (SBF, R265). -/
  | sbfS (x1 : BitVec 3) (m7 : BitVec 7)
  /-- Subtract Floating Point, long (SBF, R265). -/
  | sbfL (x1 : BitVec 3) (x2 : BitVec 4) (i : Bool) (m : Bool) (m16 : BitVec 16)
  /-- Subtract Floating Point and Return, short (SBFR, R266). -/
  | sbfrS (m7 : BitVec 7)
  /-- Subtract Floating Point and Return, long (SBFR, R266). -/
  | sbfrL (x2 : BitVec 4) (i : Bool) (m : Bool) (m16 : BitVec 16)
  /-- Multiply Floating Point, short (MLF, R267). -/
  | mlfS (x1 : BitVec 3) (m7 : BitVec 7)
  /-- Multiply Floating Point, long (MLF, R267). -/
  | mlfL (x1 : BitVec 3) (x2 : BitVec 4) (i : Bool) (m : Bool) (h : Bool) (m16 : BitVec 16)
  /-- Multiply Floating Point and Return, short (MLFR, R268). -/
  | mlfrS (m7 : BitVec 7)
  /-- Multiply Floating Point and Return, long (MLFR, R268). -/
  | mlfrL (x2 : BitVec 4) (i : Bool) (m : Bool) (h : Bool) (m16 : BitVec 16)
  /-- Divide Floating Point, short (DVF, R269). -/
  | dvfS (x1 : BitVec 3) (m7 : BitVec 7)
  /-- Divide Floating Point, long (DVF, R269). -/
  | dvfL (x1 : BitVec 3) (x2 : BitVec 4) (i : Bool) (m : Bool) (h : Bool) (m16 : BitVec 16)
  /-- Divide Floating Point and Return, short (DVFR, R270). -/
  | dvfrS (m7 : BitVec 7)
  /-- Divide Floating Point and Return, long (DVFR, R270). -/
  | dvfrL (x2 : BitVec 4) (i : Bool) (m : Bool) (h : Bool) (m16 : BitVec 16)
  /-- Add Floating Double Precision, short (AFD, R271). -/
  | afdS (x1 : BitVec 3) (m7 : BitVec 7)
  /-- Add Floating Double Precision, long (AFD, R271). -/
  | afdL (x1 : BitVec 3) (x2 : BitVec 4) (i : Bool) (m : Bool) (m16 : BitVec 16)
  /-- Add Floating Double Precision and Return, short (AFDR, R272). -/
  | afdrS (m7 : BitVec 7)
  /-- Add Floating Double Precision and Return, long (AFDR, R272). -/
  | afdrL (x2 : BitVec 4) (i : Bool) (m : Bool) (m16 : BitVec 16)
  /-- Subtract Floating Double Precision, short (SFD, R273). -/
  | sfdS (x1 : BitVec 3) (m7 : BitVec 7)
  /-- Subtract Floating Double Precision, long (SFD, R273). -/
  | sfdL (x1 : BitVec 3) (x2 : BitVec 4) (i : Bool) (m : Bool) (m16 : BitVec 16)
  /-- Subtract Floating Double Precision and Return, short (SFDR, R274). -/
  | sfdrS (m7 : BitVec 7)
  /-- Subtract Floating Double Precision and Return, long (SFDR, R274). -/
  | sfdrL (x2 : BitVec 4) (i : Bool) (m : Bool) (m16 : BitVec 16)
  /-- Logical AND, short (AND, R301). -/
  | andS (x1 : BitVec 3) (m7 : BitVec 7)
  /-- Logical AND, long (AND, R301). -/
  | andL (x1 : BitVec 3) (x2 : BitVec 4) (i : Bool) (m : Bool) (h : Bool) (m16 : BitVec 16)
  /-- Logical AND and Return, short (ANDR, R302). -/
  | andrS (m7 : BitVec 7)
  /-- Logical AND and Return, long (ANDR, R302). -/
  | andrL (x2 : BitVec 4) (i : Bool) (m : Bool) (h : Bool) (m16 : BitVec 16)
  /-- Logical OR, short (LOR, R303). -/
  | lorS (x1 : BitVec 3) (m7 : BitVec 7)
  /-- Logical OR, long (LOR, R303). -/
  | lorL (x1 : BitVec 3) (x2 : BitVec 4) (i : Bool) (m : Bool) (h : Bool) (m16 : BitVec 16)
  /-- Logical OR and Return, short (LORR, R304). -/
  | lorrS (m7 : BitVec 7)
  /-- Logical OR and Return, long (LORR, R304). -/
  | lorrL (x2 : BitVec 4) (i : Bool) (m : Bool) (h : Bool) (m16 : BitVec 16)
  /-- Exclusive OR, short (EXO, R305). -/
  | exoS (x1 : BitVec 3) (m7 : BitVec 7)
  /-- Exclusive OR, long (EXO, R305). -/
  | exoL (x1 : BitVec 3) (x2 : BitVec 4) (i : Bool) (m : Bool) (h : Bool) (m16 : BitVec 16)
  /-- Exclusive OR and Return, short (EXOR, R306). -/
  | exorS (m7 : BitVec 7)
  /-- Exclusive OR and Return, long (EXOR, R306). -/
  | exorL (x2 : BitVec 4) (i : Bool) (m : Bool) (h : Bool) (m16 : BitVec 16)
  /-- Pointer word (data; no word decodes to it) (PTR, R309). -/
  | ptr (x1 : BitVec 3) (x2 : BitVec 4) (i : Bool) (m : Bool) (m16 : BitVec 16)
deriving DecidableEq, Repr

end Sys2Proof
end

