-- ==== Sys2Proof/Machine/State.lean ====
section
/-! DEFINITION. The state of the SKC-2000: every register and every hidden latch the spec names, and the outside world
as plain data (10_state.md R20 to R40), the reasons a step can stop, and the state after reset. -/

namespace Sys2Proof.Machine

/-- The situations that the spec calls `Unspecified(reason)` and recommends to treat as a fault
(93_implementation_defined.md section 1). The machine has no trap for any of them (60_exceptions.md R460). -/
inductive Fault where
  /-- A fullword, double word or long instruction at an odd address, or an odd JS effective address (20_memory.md R64,
  R66, R67; 30_encoding.md R128; 46_jump.md R382). Raised by fullword reads and writes, fetch and JS. Safe. -/
  | misaligned
  /-- An access outside PRESENT (20_memory.md R66, R67, R73; 60_exceptions.md R481). Raised by every memory access and
  by interrupt entry. Safe. -/
  | nonexistentMemory
  /-- A store to a PROTECTED address (20_memory.md R67, R75). Raised by every store of an instruction. Safe. -/
  | protectedWrite
  /-- I = 1 and M = 1 in one word of the address chain (30_encoding.md R114, R126). Raised by the chain. Safe. -/
  | immediateAndIndirect
  /-- A 17th pointer word would be read (30_encoding.md R114, D35). Raised by the chain. Safe. -/
  | tooManyLevels
  /-- H = 1 in a word that also has I = 1 (30_encoding.md R114, R126). Raised by the chain of an instruction whose
  bit 15 is a halfword designator. Safe. -/
  | halfBeforeLast
  /-- Final M = 1 on a store, or in the JS pointer chain (40_load_store.md R169 to R176; 46_jump.md R383). Safe. -/
  | immediateOnStore
  /-- Final H = 1 on long LDX or STX (40_load_store.md R165, R174). Safe. -/
  | halfOnIndex
  /-- Final M = 1 on a floating point instruction (42_float.md R260). Safe. -/
  | immediateOnFloat
  /-- Final M = 1 on a return to memory variant (30_encoding.md R117; 41_fixed_arith.md R202). Safe. -/
  | returnImmediate
  /-- Final H = 1 on long AND, LOR, EXO or SAM (43_logical_rta_sam.md R300). Safe. -/
  | halfOnLogical
  /-- Final M = 1 or H = 1 on long RTA (43_logical_rta_sam.md R307). Safe. -/
  | designatorOnRta
  /-- M = 1 reaching DOM or DIM through a pointer word (48_io.md R432). Safe. -/
  | immediateOnIo
  /-- A fetched word that is no instruction (30_encoding.md R124; 47_nonmem.md R416). Raised by fetch. Safe. -/
  | unassignedOpcode
  /-- LXA naming register 0 (47_nonmem.md R415, D40). Safe. -/
  | lxaZero
  /-- A fast-side address of MMF or MFM outside the Fast Scratchpad (49_block.md R454). Safe. -/
  | blockOutsideFast
deriving DecidableEq, Repr

/-- Instructions without a meaning. Nothing is refused: every arm of `exec` calls a meaning. -/
inductive Refusal where
  /-- An instruction of the table the model gives no meaning; raised by no arm. Safe. -/
  | notModelled (mnemonic : String)
deriving DecidableEq, Repr

/-- A halfword that IR took together with the short instruction before it (10_state.md R24, 20_memory.md R82; log 14). -/
structure Held where
  /-- Its address in memory. -/
  addr : Addr
  /-- Empty until the CPU stores into it; from then on what it held before each store, oldest first. -/
  past : List Half
deriving DecidableEq, Repr

/-- A fullword write the I/O unit makes (20_memory.md R80). -/
structure IoWrite where
  addr : Addr
  data : Word32
deriving DecidableEq, Repr

/-- What the outside world does during one step; it takes effect after the step's instruction and before its
recognition point (60_exceptions.md R465, R468; log 16). -/
structure Arrival where
  /-- Bit L is `Request(L)` (R465). -/
  requests : BitVec 16
  /-- The I/O unit's new fullword writes, in order (20_memory.md R80). -/
  ioWrites : List IoWrite
  /-- New positions of the switches, if they change (46_jump.md R381). -/
  switches : Option (BitVec 4)
  /-- The new test equipment signal, if it changes (47_nonmem.md R407). -/
  testSignal : Option Bool
  /-- The test equipment releases a halted CPU (92_eei_decisions.md D32). -/
  resume : Bool
deriving DecidableEq, Repr

/-- A transfer on the multiplexed channel, as the device sees it (48_io.md R431). -/
inductive IoEvent where
  /-- `DevOut(DC, C, K, data)`. -/
  | out (dc : BitVec 6) (c k : Bool) (data : Word32)
  /-- `DevIn(DC, C, K)` and the word it gave. -/
  | inp (dc : BitVec 6) (c k : Bool) (data : Word32)
deriving DecidableEq, Repr

/-- Memory as a list of byte cells. Halfword address `a` has its bits 0..7 in cell `2 a` and its bits 8..15 in cell
`2 a + 1` (log 5). -/
abbrev Memory := List Host.Cell

/-- What a byte that is not listed reads as: DESIGN CHOICE, unsafe (70_reset_and_hazards.md R522 gives no value; log 4). -/
def Memory.unlisted : Byte := 0#8

/-- Cells in strictly rising order of address, all above `k`, none listing what an unlisted cell reads as. -/
def Memory.wfAbove (k : Nat) : Memory → Bool
  | [] => true
  | (a, b) :: t => decide (k ≤ a) && b != Memory.unlisted && Memory.wfAbove (a + 1) t

/-- The canonical form of memory: equal contents are equal lists. -/
def Memory.wf (m : Memory) : Bool := Memory.wfAbove 0 m

/-- The state of the machine (10_state.md R20 to R40, 00_scope.md R7). -/
structure State where
  /-- The configuration, constant during execution (00_scope.md R7, R8; log 6). -/
  cfg : Config
  /-- A, the upper accumulator (R21). -/
  regA : Word32
  /-- B, the lower accumulator (R22). -/
  regB : Word32
  /-- PC (R25). -/
  pc : Addr
  /-- IR, the instruction register (R24; log 14). -/
  ir : Word32
  /-- The halfword that the right half of IR already holds, if it holds a second instruction (R24, 20_memory.md R82;
  log 14). -/
  irHeld : Option Held
  /-- OAR, the operand address register (R26; log 15). -/
  oar : Addr
  /-- The index registers: register n of group g at place 16 g + n (R27, R28). -/
  xrf : Vector Addr 64
  /-- SR: SRn is bit n of the vector (R31). -/
  sr : BitVec 16
  /-- MR: MRn is bit n of the vector (R38). -/
  mr : BitVec 16
  /-- Memory (20_memory.md R62). -/
  mem : Memory
  /-- pending[L] at bit L (R39, 60_exceptions.md R466). -/
  pending : BitVec 16
  /-- inservice[L] at bit L (R39, 60_exceptions.md R469). -/
  inService : BitVec 16
  /-- Instructions still to execute before the next entry (R39, 60_exceptions.md R472). -/
  holdoff : Nat
  /-- The CPU executed HLT with the test signal present (R39, 47_nonmem.md R407). -/
  halted : Bool
  /-- dma_deferred: I/O unit writes delayed because SR14 = 0 (R39, 20_memory.md R80; log 17). -/
  ioDeferred : List IoWrite
  /-- What the I/O unit asks to write before each of the CPU's coming memory accesses, one entry an access: its cycle
  stealing (20_memory.md R68, R80; log 17). -/
  steals : List (List IoWrite)
  /-- The switches of JGW: switch n is bit n of the vector (R40, 46_jump.md R381; log 19). -/
  switches : BitVec 4
  /-- The test equipment signal (R40, 47_nonmem.md R407; log 19). -/
  testSignal : Bool
  /-- What the outside world does, one entry a step (R40, 60_exceptions.md R465; log 16). -/
  arrivals : List Arrival
  /-- The words devices drive, one for each input instruction (48_io.md R431; log 18). -/
  busIn : List Word32
  /-- The transfers made, oldest first (48_io.md R431; log 18). -/
  ioLog : List IoEvent
  /-- The model's own: how many free values have been drawn (R12; log 9). -/
  draws : Nat
deriving DecidableEq, Repr

/-- The machine right after reset. The spec gives no reset value (70_reset_and_hazards.md R520, R523): pc is the default
start of 95_test_vectors.md section 0, SR, MR and the hidden latches are the concrete choice R521 names, every other
register is zero. DESIGN CHOICE, unsafe (log 1, 2, 3, 4). -/
def State.reset : State where
  cfg := Config.baseline
  regA := 0#32
  regB := 0#32
  pc := 20000#18
  ir := 0#32
  irHeld := none
  oar := 0#18
  xrf := Vector.replicate 64 0#18
  sr := 0#16
  mr := 0#16
  mem := []
  pending := 0#16
  inService := 0#16
  holdoff := 0
  halted := false
  ioDeferred := []
  steals := []
  switches := 0#4
  testSignal := false
  arrivals := []
  busIn := []
  ioLog := []
  draws := 0

end Sys2Proof.Machine
end

