-- ==== Sys2Proof/Machine/Ops.lean ====
section
/-! DEFINITION. The named operations over memory and registers that the meanings are written in, and the interrupt
mechanism: recognition, entry to a level, return from one (20_memory.md R66, R67; 60_exceptions.md R466 to R475). -/

namespace Sys2Proof.Machine

/-- What a step answers. -/
abbrev StepOutcome := Host.Outcome State Fault Refusal

/-- The outcome of a computation that can only fault. -/
def finish : Except Fault State → StepOutcome
  | .ok s => .next s
  | .error f => .fault f

/-! ### Memory cells -/

/-- The byte in a cell. -/
def Memory.byte : Memory → Nat → Byte
  | [], _ => Memory.unlisted
  | (a, b) :: t, k => if k = a then b else Memory.byte t k

/-- Write a byte to a cell, keeping the canonical form. -/
def Memory.put : Memory → Nat → Byte → Memory
  | [], k, v => if v = Memory.unlisted then [] else [(k, v)]
  | (a, b) :: t, k, v =>
    if k < a then (if v = Memory.unlisted then (a, b) :: t else (k, v) :: (a, b) :: t)
    else if k = a then (if v = Memory.unlisted then t else (k, v) :: t)
    else (a, b) :: Memory.put t k v

/-- The halfword at an address: bits 0..7 in the lower cell (log 5). -/
def Memory.half (m : Memory) (a : Addr) : Half :=
  m.byte (2 * a.toNat) ++ m.byte (2 * a.toNat + 1)

/-- Replace the halfword at an address. -/
def Memory.putHalf (m : Memory) (a : Addr) (v : Half) : Memory :=
  (m.put (2 * a.toNat) (v.extractLsb' 8 8)).put (2 * a.toNat + 1) (v.extractLsb' 0 8)

/-- Replace the fullword at an address and the next: the more significant half at the lower address (R63). -/
def Memory.putWord (m : Memory) (a : Addr) (v : Word32) : Memory :=
  (m.putHalf a (v.extractLsb' 16 16)).putHalf (a + 1) (v.extractLsb' 0 16)

/-! ### Register and field updates -/

def State.setA (s : State) (v : Word32) : State := { s with regA := v }
def State.setB (s : State) (v : Word32) : State := { s with regB := v }
def State.setPc (s : State) (v : Addr) : State := { s with pc := v }
def State.setIr (s : State) (v : Word32) (held : Option Held) : State := { s with ir := v, irHeld := held }
def State.setHeld (s : State) (held : Option Held) : State := { s with irHeld := held }
def State.setOar (s : State) (v : Addr) : State := { s with oar := v }
def State.setSr (s : State) (v : BitVec 16) : State := { s with sr := v }
def State.setMr (s : State) (v : BitVec 16) : State := { s with mr := v }
def State.setMem (s : State) (m : Memory) : State := { s with mem := m }
def State.setPending (s : State) (v : BitVec 16) : State := { s with pending := v }
def State.setInService (s : State) (v : BitVec 16) : State := { s with inService := v }
def State.setHoldoff (s : State) (n : Nat) : State := { s with holdoff := n }
def State.setHalted (s : State) (h : Bool) : State := { s with halted := h }
def State.setIoDeferred (s : State) (l : List IoWrite) : State := { s with ioDeferred := l }
def State.setSteals (s : State) (l : List (List IoWrite)) : State := { s with steals := l }
def State.setLines (s : State) (sw : BitVec 4) (t : Bool) : State := { s with switches := sw, testSignal := t }
def State.setArrivals (s : State) (l : List Arrival) : State := { s with arrivals := l }
def State.setBusIn (s : State) (l : List Word32) : State := { s with busIn := l }
def State.setIoLog (s : State) (l : List IoEvent) : State := { s with ioLog := l }
def State.setDraws (s : State) (n : Nat) : State := { s with draws := n }

/-- `next(k)`: pc + k modulo 2^18 (00_scope.md R12, D1). -/
def State.advance (s : State) (k : Addr) : State := s.setPc (s.pc + k)

/-- The 64 bit register (A,B), A the more significant (10_state.md R23). -/
def State.regAB (s : State) : BitVec 64 := s.regA ++ s.regB

/-- Write the 64 bit register (A,B). -/
def State.setAB (s : State) (v : BitVec 64) : State :=
  (s.setA (v.extractLsb' 32 32)).setB (v.extractLsb' 0 32)

/-- SRn (10_state.md R31). -/
def State.srBit (s : State) (n : Nat) : Bool := s.sr.getLsbD n

/-- A vector with one bit replaced. -/
def withBit (v : BitVec 16) (n : Nat) (b : Bool) : BitVec 16 :=
  if b then v ||| (1#16 <<< n) else v &&& ~~~(1#16 <<< n)

/-- SRn ← b. -/
def State.setSrBit (s : State) (n : Nat) (b : Bool) : State := s.setSr (withBit s.sr n b)

/-- The place of XR[n] of the group that SR0, SR1 select, g = 2 SR0 + SR1 (10_state.md R28, D37). -/
def State.xrPlace (s : State) (n : BitVec 4) : Fin 64 :=
  (BitVec.ofBool (s.srBit 0) ++ BitVec.ofBool (s.srBit 1) ++ n : BitVec 6).toFin

/-- XR[n] of the selected group. -/
def State.xr (s : State) (n : BitVec 4) : Addr := s.xrf.get (s.xrPlace n)

/-- XR[n] ← v in the selected group. -/
def State.setXr (s : State) (n : BitVec 4) (v : Addr) : State :=
  { s with xrf := s.xrf.set (s.xrPlace n).val v (s.xrPlace n).isLt }

/-- `draw(N)`: the next free value (R12, log 9). -/
def State.drawWord (s : State) : Word32 := Config.draw s.draws

/-- The state after one free value has been drawn. -/
def State.drawn (s : State) : State := s.setDraws (s.draws + 1)

/-- A and B free, two values drawn: what a forbidden operand of CFX or DVDH leaves (93_implementation_defined.md
section 1, "A, B any value"; log 12, 13). -/
def State.freeAB (s : State) : State :=
  ((s.setA s.drawWord).setB (Config.draw (s.draws + 1))).setDraws (s.draws + 2)

/-! ### Addresses -/

/-- Whether an address lies in one of the ranges. -/
def inRanges (rs : List AddrRange) (a : Addr) : Bool :=
  rs.any fun r => decide (r.lo ≤ a.toNat) && decide (a.toNat ≤ r.hi)

/-- PRESENT(addr) (00_scope.md R7, 20_memory.md R73). -/
def State.isPresent (s : State) (a : Addr) : Bool := inRanges s.cfg.present a

/-- PROTECTED(addr) (00_scope.md R7, 20_memory.md R75). -/
def State.isProtected (s : State) (a : Addr) : Bool := inRanges s.cfg.protect a

/-- InFast(addr) (20_memory.md R70). -/
def State.inFast (s : State) (a : Addr) : Bool :=
  decide (s.cfg.fastLo ≤ a.toNat) && decide (a.toNat ≤ s.cfg.fastHi)

/-- An odd address. -/
def isOdd (a : Addr) : Bool := a.getLsbD 0

/-! ### The I/O unit -/

/-- What the halfword that IR holds is in memory now joins what it held before. -/
def Held.remember (m : Memory) (h : Held) : Held := { h with past := h.past ++ [m.half h.addr] }

/-- A write of the I/O unit to the halfword that IR holds: alone it is seen by the fetch, but where the CPU has stored
there too, what the store left stays among the contents that may run (20_memory.md R82; log 14). -/
def State.noteWrite (s : State) (w : IoWrite) : State :=
  s.setHeld (s.irHeld.map fun h => if h.addr = w.addr + 1 ∧ h.past ≠ [] then h.remember s.mem else h)

/-- A store of the CPU to the halfword that IR holds: what stands there may still run (20_memory.md R82, D28; log 14). -/
def State.noteStore (s : State) (half : Bool) (a : Addr) : State :=
  s.setHeld (s.irHeld.map fun h => if h.addr = (if half then a else a + 1) then h.remember s.mem else h)

/-- A fullword write of the I/O unit: PRESENT memory only, at an even address; anything else is not performed
(20_memory.md R68, R80; log 17). -/
def State.ioWrite (s : State) (w : IoWrite) : State :=
  if !isOdd w.addr && s.isPresent w.addr && s.isPresent (w.addr + 1) then
    (s.noteWrite w).setMem (s.mem.putWord w.addr w.data)
  else s

/-- The deferred writes, in order, if SR14 allows them (20_memory.md R80). -/
def State.flushIo (s : State) : State :=
  if s.srBit 14 then (s.ioDeferred.foldl State.ioWrite s).setIoDeferred [] else s

/-- The I/O unit's turn before a memory access of the CPU: what it asks for now waits its turn behind what it asked for
before, and SR14 says whether it is done now (20_memory.md R68, R80; 60_exceptions.md R482, D27). -/
def State.ioTurn (s : State) : State :=
  ((s.setIoDeferred (s.ioDeferred ++ s.steals.headD [])).setSteals s.steals.tail).flushIo

/-! ### Memory accesses of the CPU -/

/-- MemRead(addr, 16) (20_memory.md R66). -/
def State.read16 (s : State) (a : Addr) : Except Fault Half :=
  if s.isPresent a then .ok (s.mem.half a) else .error .nonexistentMemory

/-- MemRead(addr, 32) (R66): the halfword of the even address in bits 0..15. -/
def State.read32 (s : State) (a : Addr) : Except Fault Word32 :=
  if isOdd a then .error .misaligned
  else do
    let hi ← s.read16 a
    let lo ← s.read16 (a + 1)
    .ok (hi ++ lo)

/-- MemWrite(addr, 16, v) (R67). -/
def State.write16 (s : State) (a : Addr) (v : Half) : Except Fault State :=
  if !s.isPresent a then .error .nonexistentMemory
  else if s.isProtected a then .error .protectedWrite
  else .ok (s.setMem (s.mem.putHalf a v))

/-- MemWrite(addr, 32, v) (R67). -/
def State.write32 (s : State) (a : Addr) (v : Word32) : Except Fault State :=
  if isOdd a then .error .misaligned
  else do
    let s1 ← s.write16 a (v.extractLsb' 16 16)
    s1.write16 (a + 1) (v.extractLsb' 0 16)

/-- An indivisible halfword read of an instruction, after the I/O unit's turn (R68). -/
def State.load16 (s : State) (a : Addr) : Except Fault (Half × State) := do
  let v ← s.ioTurn.read16 a
  .ok (v, s.ioTurn)

/-- An indivisible fullword read of an instruction, after the I/O unit's turn (R68). -/
def State.load32 (s : State) (a : Addr) : Except Fault (Word32 × State) := do
  let v ← s.ioTurn.read32 a
  .ok (v, s.ioTurn)

/-- A 64 bit read of an instruction: two fullword accesses, which the I/O unit may come between (R66, R68). -/
def State.load64 (s : State) (a : Addr) : Except Fault (BitVec 64 × State) := do
  let (hi, s1) ← s.load32 a
  let (lo, s2) ← s1.load32 (a + 2)
  .ok (hi ++ lo, s2)

/-- The state in which a store of an instruction, of a halfword or a fullword, changes memory: the I/O unit has had its
turn, and a store into the halfword that IR holds is noted (R68, R82). -/
def State.storeTurn (s : State) (half : Bool) (a : Addr) : State := s.ioTurn.noteStore half a

/-- An indivisible halfword write of an instruction, after the I/O unit's turn (R68). -/
def State.store16 (s : State) (a : Addr) (v : Half) : Except Fault State := (s.storeTurn true a).write16 a v

/-- An indivisible fullword write of an instruction, after the I/O unit's turn (R68). -/
def State.store32 (s : State) (a : Addr) (v : Word32) : Except Fault State := (s.storeTurn false a).write32 a v

/-- A write of 16 or 32 bits, the halfword taken from bits 0..15 of the register (R86, 41_fixed_arith.md R202). -/
def State.storeBack (s : State) (a : Addr) (half : Bool) (v : Word32) : Except Fault State :=
  if half then s.store16 a (v.extractLsb' 16 16) else s.store32 a v

/-! ### Interrupts -/

/-- TRANSFER(L), for a level L in 0..15 (00_scope.md R7; 60_exceptions.md R463). -/
def State.transferLoc (s : State) (l : Nat) : Addr := s.cfg.transferAt.get (Fin.ofNat 16 l)

/-- RETURN(L), for a level L in 0..15 (00_scope.md R7; 60_exceptions.md R463). -/
def State.returnLoc (s : State) (l : Nat) : Addr := s.cfg.returnAt.get (Fin.ofNat 16 l)

/-- allowed(L) at bit L: MRn governs level n, and the configuration gives the polarity (10_state.md R38, 60_exceptions.md
R466). DESIGN CHOICE, unsafe: D22 calls the map of bits to levels a parameter too, and the model fixes it at the one that
R38 and R466 name (log 33). -/
def State.allowed (s : State) : BitVec 16 := if s.cfg.mrOneAllows then s.mr else ~~~s.mr

/-- Level L may be entered: pending, allowed, and no level L' ≥ L in service (60_exceptions.md R468, R469). -/
def State.candidate (s : State) (l : Nat) : Bool :=
  s.pending.getLsbD l && s.allowed.getLsbD l && s.inService >>> l == 0#16

/-- The highest candidate level below a bound (R468). -/
def State.highestBelow (s : State) : Nat → Option Nat
  | 0 => none
  | n + 1 => if s.candidate n then some n else s.highestBelow n

/-- The store of the return address: a CPU store, after the I/O unit's turn, that PRESENT governs and PROTECTED does not
(20_memory.md R81; 60_exceptions.md R481). -/
def State.storeReturn (s : State) (a : Addr) (v : Word32) : Except Fault State :=
  if isOdd a then .error .misaligned
  else if s.isPresent a && s.isPresent (a + 1) then .ok (s.ioTurn.setMem (s.ioTurn.mem.putWord a v))
  else .error .nonexistentMemory

/-- Taking an interrupt: Entry(L) (60_exceptions.md R470, R471, R481). The return address goes to bits 14..31 of the
fullword at RETURN(L), bits 0..13 are free (D38); pc becomes TRANSFER(L); A, B, the index registers, SR and MR keep
their values. IR holds no second instruction any more (log 14). An absent TRANSFER(L) is reported before an absent or odd
RETURN(L): DESIGN CHOICE, safe, since no rule gives the order (log 26). -/
def State.enterInterrupt (s : State) (l : Nat) : Except Fault State :=
  if s.isPresent (s.transferLoc l) && s.isPresent (s.transferLoc l + 1) then do
    let s1 ← s.storeReturn (s.returnLoc l) (s.drawWord.extractLsb' 0 14 ++ s.pc)
    .ok ((((((s1.drawn.setPc (s.transferLoc l)).setPending (withBit s.pending l false)).setInService
      (withBit s.inService l true)).setHoldoff s.cfg.intHoldoff).setHalted false).setIr s.ir none)
  else .error .nonexistentMemory

/-- The levels below a bound whose RETURN location an address is, level L at bit L (60_exceptions.md R475). -/
def State.returnLevels (s : State) (ea : Addr) : Nat → BitVec 16
  | 0 => 0#16
  | n + 1 => if s.returnLoc n = ea then withBit (s.returnLevels ea n) n true else s.returnLevels ea n

/-- Return from an interrupt, the part of RTA that depends on the effective address: inservice[L] ← 0 for the level L
whose RETURN(L) it is, each of them if the configuration gives several levels one location (60_exceptions.md R469,
R475). -/
def State.completeLevel (s : State) (ea : Addr) : State :=
  s.setInService (s.inService &&& ~~~s.returnLevels ea 16)

/-- RTA's effect once the return word is read: the level completes and pc ← bits 14..31 (R307, R475). -/
def State.interruptReturn (s : State) (ea : Addr) (w : Word32) : State :=
  (s.completeLevel ea).setPc (w.extractLsb' 0 18)

/-- The recognition point at the conclusion of each instruction (60_exceptions.md R468, R472). -/
def State.recognise (s : State) : Except Fault State :=
  let s1 := s.setHoldoff (s.holdoff - 1)
  if s1.holdoff = 0 ∧ s1.srBit 15 = true then
    match s1.highestBelow 16 with
    | some l => s1.enterInterrupt l
    | none => .ok s1
  else .ok s1

end Sys2Proof.Machine
end

