-- ==== Sys2Proof/Machine/Flags.lean ====
section
/-! DEFINITION. The flag computations: the carry and double precision indicator SR12, SR13 (10_state.md R34,
41_fixed_arith.md R201), the memory layouts of SR and MR (10_state.md R33, R38), and the program flags (R35). -/

namespace Sys2Proof.Machine

/-- AddU(a, x, c) = lo_32(u(a) + u(x) + c) (R201). -/
def addU (a x : Word32) (c : Bool) : Word32 := BitVec.ofNat 32 (a.toNat + x.toNat + c.toNat)

/-- SubU(a, x, c) = lo_32(u(a) - u(x) - c) (R201). -/
def subU (a x : Word32) (c : Bool) : Word32 := BitVec.ofInt 32 ((a.toNat : Int) - x.toNat - c.toNat)

/-- CarryL(b, x): a carry out of bit 0 of B (R201). -/
def carryL (b x : Word32) : Bool := decide (2 ^ 32 ≤ b.toNat + x.toNat)

/-- BorrowL(b, x): a borrow out of bit 0 of B (R201). -/
def borrowL (b x : Word32) : Bool := decide (b.toNat < x.toNat)

/-- cin = SR12 and SR13 (R201). -/
def State.cin (s : State) : Bool := s.srBit 12 && s.srBit 13

/-- SR12 ← c, SR13 ← d. -/
def withCarry (sr : BitVec 16) (c d : Bool) : BitVec 16 := withBit (withBit sr 12 c) 13 d

/-- SR[n] for n in 0..7 from bits 24..17 of a memory word (10_state.md R33). -/
def srLowOfWord (w : Word32) : BitVec 8 := w.extractLsb' 7 8

/-- SR[n] for n in 8..15 from bits 8..1 of a memory word (10_state.md R33). -/
def srHighOfWord (w : Word32) : BitVec 8 := w.extractLsb' 23 8

/-- The word STS stores: bits 1..8 SR15..SR8, bits 9..16 zero, bits 17..24 SR7..SR0, the rest free (40_load_store.md R176). -/
def srWord (sr : BitVec 16) (free : Word32) : Word32 :=
  free.extractLsb' 31 1 ++ sr.extractLsb' 8 8 ++ 0#8 ++ sr.extractLsb' 0 8 ++ free.extractLsb' 0 7

/-- MR[n] from bit 16 - n of a memory word (10_state.md R38). -/
def mrOfWord (w : Word32) : BitVec 16 := w.extractLsb' 15 16

/-- The word STI stores: bits 1..16 MR15..MR0, the rest free (40_load_store.md R175). -/
def mrWord (mr : BitVec 16) (free : Word32) : Word32 :=
  free.extractLsb' 31 1 ++ mr ++ free.extractLsb' 0 15

/-- The bits of SR that a 4 bit flag selector names: F = 1 is SR8, 2 is SR9, 4 is SR10, 8 is SR11 (47_nonmem.md R408). -/
def programFlags (f : BitVec 4) : BitVec 16 := 0#4 ++ f ++ 0#8

end Sys2Proof.Machine
end

