-- ==== Sys2Proof/Machine/Operands.lean ====
section
/-! DEFINITION. Every way an instruction forms an effective address or an operand (30_encoding.md R110 to R118). -/

namespace Sys2Proof.Machine

/-- What the address rules answer: the effective address, the final M and the final H (R114). A short instruction has
M = 0 and H = SR5 (R116). -/
structure Ref where
  addr : Addr
  imm : Bool
  half : Bool
deriving DecidableEq, Repr

/-- What the address rules of an instruction answer: the reference, and the state after the accesses they make. -/
abbrev RefAccess := Except Fault (Ref × State)

/-- A short reference needs no access. -/
def State.direct (s : State) (r : Ref) : RefAccess := .ok (r, s)

/-- idx1(x): 0 if x = 0, else XR[x] (R110). -/
def State.idx1 (s : State) (x : BitVec 3) : Addr :=
  if x = 0#3 then 0#18 else s.xr (x.zeroExtend 4)

/-- idx2(x): 0 if x = 0, else XR[x] (R110). -/
def State.idx2 (s : State) (x : BitVec 4) : Addr :=
  if x = 0#4 then 0#18 else s.xr x

/-- The 10 bit short address F = SR4 ∥ SR3 ∥ SR2 ∥ M7 (R112). -/
def State.shortField (s : State) (m7 : BitVec 7) : BitVec 10 :=
  BitVec.ofBool (s.srBit 4) ++ BitVec.ofBool (s.srBit 3) ++ BitVec.ofBool (s.srBit 2) ++ m7

/-- The short unindexed address: SHORT_PIVOT + s (F - 512), s = 1 with SR5 = 1 and 2 with SR5 = 0 (R112, D3). -/
def State.shortUnindexed (s : State) (m7 : BitVec 7) : Addr :=
  s.cfg.shortPivot + (if s.srBit 5 then 1#18 else 2#18) * ((s.shortField m7).zeroExtend 18 - 512#18)

/-- The short indexed address: SHORT_INDEXED_SCALE · M7 + index (R111, D4). -/
def State.shortIndexed (s : State) (m7 : BitVec 7) (x : Addr) : Addr :=
  s.cfg.shortIndexedScale * m7.zeroExtend 18 + x

/-- A short memory reference with index designator X1 (R111, R112). -/
def State.shortRef (s : State) (x1 : BitVec 3) (m7 : BitVec 7) : Ref :=
  ⟨if x1 = 0#3 then s.shortUnindexed m7 else s.shortIndexed m7 (s.idx1 x1), false, s.srBit 5⟩

/-- A short return to memory reference: XR7 indexes unless SR6 = 1, which makes it unindexed (R117, D5). -/
def State.shortReturnRef (s : State) (m7 : BitVec 7) : Ref :=
  ⟨if s.srBit 6 then s.shortUnindexed m7 else s.shortIndexed m7 (s.xr 7#4), false, s.srBit 5⟩

/-- The address a pointer word names: M16 + idx1(X1) + idx2(X2) (R109, R114). -/
def State.pointerAddr (s : State) (w : Word32) : Addr :=
  (w.extractLsb' 0 16).zeroExtend 18 + s.idx1 (w.extractLsb' 23 3) + s.idx2 (w.extractLsb' 19 4)

/-- The indirect chain from an address and the I, M, H of the word that gave it, with at most `n` more pointer words
(R114, D35). `desig` says that bit 15 is a halfword designator for this instruction. -/
def State.chain (s : State) (desig : Bool) (n : Nat) (ea : Addr) (i m h : Bool) : RefAccess :=
  match i, m, n with
  | false, _, _ => .ok (⟨ea, m, h⟩, s)
  | true, true, _ => .error .immediateAndIndirect
  | true, false, 0 => .error .tooManyLevels
  | true, false, n + 1 => do
    let (w, s1) ← s.load32 ea
    if h && desig then .error .halfBeforeLast
    else s1.chain desig n (s.pointerAddr w) (w.getLsbD 18) (w.getLsbD 17) (w.getLsbD 16)

/-- LongEA with the contribution of the instruction's own X1 and X2 fields (R114): at most 16 levels. -/
def State.longRef (s : State) (desig : Bool) (index : Addr) (i m h : Bool) (m16 : BitVec 16) : RefAccess :=
  s.chain desig 16 (m16.zeroExtend 18 + index) i m h

/-- The index contribution of a long instruction without the return to memory option (R110, R114). -/
def State.longIndex (s : State) (x1 : BitVec 3) (x2 : BitVec 4) : Addr := s.idx1 x1 + s.idx2 x2

/-- The index contribution of a long return to memory variant: XR7 unless SR6 = 1 (R117). -/
def State.returnIndex (s : State) (x2 : BitVec 4) : Addr :=
  (if s.srBit 6 then 0#18 else s.xr 7#4) + s.idx2 x2

/-- The immediate operand: the low 16 bits of the effective address, left adjusted if H = 1, sign extended if H = 0
(R115, D12). -/
def Ref.immediate (r : Ref) : Word32 :=
  if r.half then (r.addr.extractLsb' 0 16 : Half) ++ 0#16 else (r.addr.extractLsb' 0 16).signExtend 32

/-- The operand of an A or B register instruction (R116): immediate, halfword left adjusted, or fullword. -/
def State.operand (s : State) (r : Ref) : Except Fault (Word32 × State) :=
  if r.imm then .ok (r.immediate, s)
  else if r.half then do
    let (h, s1) ← s.load16 r.addr
    .ok (h ++ 0#16, s1)
  else s.load32 r.addr

/-- The 18 bit operand of LDX and the index register instructions: the effective address if M = 1, else bits 14..31 of
the fullword there (R118, 45_index.md R355). -/
def State.indexOperand (s : State) (r : Ref) : Except Fault (Addr × State) :=
  if r.imm then .ok (r.addr, s)
  else do
    let (w, s1) ← s.load32 r.addr
    .ok (w.extractLsb' 0 18, s1)

end Sys2Proof.Machine
end

