-- ==== Sys2Proof/Machine/Block.lean ====
section
/-! DEFINITION. Block transfers (49_block.md R450 to R454): one uninterruptible step, words one at a time in ascending
order; the I/O unit has its turn before each access. -/

namespace Sys2Proof.Machine

/-- N = idx1(X1) + J, not reduced (R450). -/
def State.wordCount (s : State) (x1 : BitVec 3) (j : BitVec 7) : Nat := (s.idx1 x1).toNat + j.toNat

/-- One word: read at `src`, masked with A, written at `dst`; the fast-side address is checked first (R452, R453). -/
def State.moveWord (s : State) (fast src dst : Addr) : Except Fault State :=
  if !s.inFast fast then .error .blockOutsideFast
  else do
    let (w, s1) ← s.load32 src
    s1.store32 dst (w &&& s.regA)

/-- Move `n` words, the next one at the core address c + 2 and the fast address f + 2 (R451, R452, R453). -/
def State.moveBlock (toFast : Bool) (s : State) (c f : Addr) : Nat → Except Fault State
  | 0 => .ok s
  | n + 1 => do
    let s1 ← s.moveWord (f + 2) (if toFast then c + 2 else f + 2) (if toFast then f + 2 else c + 2)
    State.moveBlock toFast s1 (c + 2) (f + 2) n

/-- A whole transfer: B and XR0 go up by 2N (R451, R454). -/
def blockTransfer (toFast : Bool) (s : State) (n : Nat) : StepOutcome :=
  finish do
    let s1 ← s.moveBlock toFast (s.regB.extractLsb' 0 18) (s.xr 0#4) n
    .ok (((s1.setB (s.regB + BitVec.ofNat 32 (2 * n))).setXr 0#4 (s.xr 0#4 + BitVec.ofNat 18 (2 * n))).advance 1)

/-- MFM (R453). -/
def execMfm (x1 : BitVec 3) (j : BitVec 7) (s : State) : StepOutcome :=
  blockTransfer false s (s.wordCount x1 j)

/-- MMF (R452). -/
def execMmf (x1 : BitVec 3) (j : BitVec 7) (s : State) : StepOutcome :=
  blockTransfer true s (s.wordCount x1 j)

end Sys2Proof.Machine
end

