-- ==== Sys2Proof/Machine/FixedArith.lean ====
section
/-! DEFINITION. Fixed point arithmetic (41_fixed_arith.md R200 to R228). The halfword variants are selected by the
reference (SR5 or the final H, 30_encoding.md R116), the return to memory variants by X1 = 7 (R117). -/

namespace Sys2Proof.Machine

/-- A computation of the add, subtract and logical families: from the state and the operand, the 32 bit result and the
new SR. -/
abbrev AluOp := State → Word32 → Word32 × BitVec 16

/-- The base instruction: the result to a register, the flags to SR (R203, R207, R211, R215). -/
def aluRegister (set : State → Word32 → State) (op : AluOp) (ref : RefAccess) (len : Addr) : StepOutcome :=
  finish do
    let (r, s) ← ref
    let (v, s1) ← s.operand r
    .ok (((set (s1.setOar r.addr) (op s1 v).1).setSr (op s1 v).2).advance len)

/-- Return to memory, kind 1: the result and the flags only if the operand came from the Fast Scratchpad, else nothing
(R202, D10, D11). -/
def aluReturn (op : AluOp) (ref : RefAccess) (len : Addr) : StepOutcome :=
  finish do
    let (r, s) ← ref
    let (v, s1) ← s.operand r
    if r.imm then .error .returnImmediate
    else if s1.inFast r.addr then do
      let s2 ← (s1.setOar r.addr).storeBack r.addr r.half (op s1 v).1
      .ok ((s2.setSr (op s1 v).2).advance len)
    else .ok ((s1.setOar r.addr).advance len)

/-- A computation that writes A, or A and B, itself; the Bool says that the operand is a halfword. -/
abbrev RegOp := State → Bool → Word32 → State

/-- The base instruction of multiply and divide (R219, R223). -/
def regOperation (op : RegOp) (ref : RefAccess) (len : Addr) : StepOutcome :=
  finish do
    let (r, s) ← ref
    let (v, s1) ← s.operand r
    .ok ((op (s1.setOar r.addr) r.half v).advance len)

/-- Return to memory, kind 2: the registers always receive the result, and A is also stored if the operand came from
the Fast Scratchpad (R202). -/
def regReturn (op : RegOp) (ref : RefAccess) (len : Addr) : StepOutcome :=
  finish do
    let (r, s) ← ref
    let (v, s1) ← s.operand r
    if r.imm then .error .returnImmediate
    else
      let s2 := op (s1.setOar r.addr) r.half v
      if s1.inFast r.addr then do
        let s3 ← s2.storeBack r.addr r.half s2.regA
        .ok (s3.advance len)
      else .ok (s2.advance len)

/-- ADU: A plus the operand plus cin; SR12, SR13 ← 0 (R203, R204). -/
def aduOp : AluOp := fun s v => (addU s.regA v s.cin, withCarry s.sr false false)

/-- ADL: B plus the operand; SR12 ← the carry, SR13 ← 1 (R207, R208). -/
def adlOp : AluOp := fun s v => (addU s.regB v false, withCarry s.sr (carryL s.regB v) true)

/-- SBU: A minus the operand minus cin; SR12, SR13 ← 0 (R211, R212). -/
def sbuOp : AluOp := fun s v => (subU s.regA v s.cin, withCarry s.sr false false)

/-- SBL: B minus the operand; SR12 ← the borrow, SR13 ← 1 (R215, R216). -/
def sblOp : AluOp := fun s v => (subU s.regB v false, withCarry s.sr (borrowL s.regB v) true)

/-- MUL: the low 63 bits of the product, then the sign of the initial A (R219, D13). -/
def mulFull (s : State) (v : Word32) : State :=
  s.setAB (BitVec.ofInt 63 (s.regA.toInt * v.toInt) ++ BitVec.ofBool s.regA.msb)

/-- MULH: the low 31 bits of the product of the left halves in A bits 0..30; bit 31 is free (R220, D39). -/
def mulHalf (s : State) (v : Word32) : State :=
  (s.setA (BitVec.ofInt 31 ((s.regA.extractLsb' 16 16).toInt * (v.extractLsb' 16 16).toInt)
    ++ s.drawWord.extractLsb' 0 1)).drawn

/-- MUL or MULH (R219, R220). -/
def mulOp : RegOp := fun s half v => if half then mulHalf s v else mulFull s v

/-- An integer quotient: one of the two neighbours of n / d, exact when exact; the upper one only if `up` and only if
it is at most `top` (R223, D14, log 22). -/
def neighbourQuotient (n d top : Int) (up : Bool) : Int :=
  let num := if d < 0 then -n else n
  let den := if d < 0 then -d else d
  let q := num / den
  if num % den ≠ 0 ∧ up = true ∧ q + 1 ≤ top then q + 1 else q

/-- The 63 bit dividend of DVD, the inverse of MUL's product format (R223). -/
def dividend (ab : BitVec 64) : Int := (ab.extractLsb' 1 63).toInt

/-- DVD: the quotient to A, B free. Where A is not smaller than the divisor in magnitude the quotient is free too
(R223, D14; 93_implementation_defined.md section 1: "A, B any value, continue"; log 12). -/
def dvdFull (s : State) (v : Word32) : State :=
  if s.regA.toInt.natAbs < v.toInt.natAbs then
    ((s.setA (BitVec.ofInt 32 (neighbourQuotient (dividend s.regAB) v.toInt (2 ^ 31 - 1)
      (Config.fxdivUp s.regAB v)))).setB s.drawWord).drawn
  else s.freeAB

/-- The quotient of DVDH: the law of R224 holds where A bits 16..31 are zero; elsewhere an open parameter function (log 21). -/
def quotientHalf (a : Word32) (d : Half) : Half :=
  if a.extractLsb' 0 16 = 0#16 then
    BitVec.ofInt 16
      (neighbourQuotient ((a.extractLsb' 16 16).toInt * 2 ^ 15) d.toInt (2 ^ 15 - 1) (Config.fxdivhUp a d))
  else Config.fxdivhOpen a d

/-- DVDH: the quotient to A bits 0..15, bits 16..31 free, B unchanged. Where the magnitude precondition fails A and B are
free (R224, D14; 93_implementation_defined.md section 1: "A, B any value, continue"; log 12). -/
def dvdHalf (s : State) (v : Word32) : State :=
  let d : Half := v.extractLsb' 16 16
  if (s.regA.extractLsb' 16 16).toInt.natAbs < d.toInt.natAbs then
    (s.setA (quotientHalf s.regA d ++ s.drawWord.extractLsb' 0 16)).drawn
  else s.freeAB

/-- DVD or DVDH (R223, R224). -/
def dvdOp : RegOp := fun s half v => if half then dvdHalf s v else dvdFull s v

/-- ADU and ADUH, short (R203, R204). -/
def execAduS (x1 : BitVec 3) (m7 : BitVec 7) (s : State) : StepOutcome :=
  aluRegister State.setA aduOp (s.direct (s.shortRef x1 m7)) 1

/-- ADU, long (R203). -/
def execAduL (x1 : BitVec 3) (x2 : BitVec 4) (i m : Bool) (m16 : BitVec 16) (s : State) : StepOutcome :=
  aluRegister State.setA aduOp (s.longRef true (s.longIndex x1 x2) i m false m16) 2

/-- ADUH, long (R204). -/
def execAduhL (x1 : BitVec 3) (x2 : BitVec 4) (i m : Bool) (m16 : BitVec 16) (s : State) : StepOutcome :=
  aluRegister State.setA aduOp (s.longRef true (s.longIndex x1 x2) i m true m16) 2

/-- ADUR and ADUHR, short (R205, R206). -/
def execAdurS (m7 : BitVec 7) (s : State) : StepOutcome :=
  aluReturn aduOp (s.direct (s.shortReturnRef m7)) 1

/-- ADUR, long (R205). -/
def execAdurL (x2 : BitVec 4) (i m : Bool) (m16 : BitVec 16) (s : State) : StepOutcome :=
  aluReturn aduOp (s.longRef true (s.returnIndex x2) i m false m16) 2

/-- ADUHR, long (R206). -/
def execAduhrL (x2 : BitVec 4) (i m : Bool) (m16 : BitVec 16) (s : State) : StepOutcome :=
  aluReturn aduOp (s.longRef true (s.returnIndex x2) i m true m16) 2

/-- ADL and ADLH, short (R207, R208). -/
def execAdlS (x1 : BitVec 3) (m7 : BitVec 7) (s : State) : StepOutcome :=
  aluRegister State.setB adlOp (s.direct (s.shortRef x1 m7)) 1

/-- ADL, long (R207). -/
def execAdlL (x1 : BitVec 3) (x2 : BitVec 4) (i m : Bool) (m16 : BitVec 16) (s : State) : StepOutcome :=
  aluRegister State.setB adlOp (s.longRef true (s.longIndex x1 x2) i m false m16) 2

/-- ADLH, long (R208). -/
def execAdlhL (x1 : BitVec 3) (x2 : BitVec 4) (i m : Bool) (m16 : BitVec 16) (s : State) : StepOutcome :=
  aluRegister State.setB adlOp (s.longRef true (s.longIndex x1 x2) i m true m16) 2

/-- ADLR and ADLHR, short (R209, R210). -/
def execAdlrS (m7 : BitVec 7) (s : State) : StepOutcome :=
  aluReturn adlOp (s.direct (s.shortReturnRef m7)) 1

/-- ADLR, long (R209). -/
def execAdlrL (x2 : BitVec 4) (i m : Bool) (m16 : BitVec 16) (s : State) : StepOutcome :=
  aluReturn adlOp (s.longRef true (s.returnIndex x2) i m false m16) 2

/-- ADLHR, long (R210). -/
def execAdlhrL (x2 : BitVec 4) (i m : Bool) (m16 : BitVec 16) (s : State) : StepOutcome :=
  aluReturn adlOp (s.longRef true (s.returnIndex x2) i m true m16) 2

/-- SBU and SBUH, short (R211, R212). -/
def execSbuS (x1 : BitVec 3) (m7 : BitVec 7) (s : State) : StepOutcome :=
  aluRegister State.setA sbuOp (s.direct (s.shortRef x1 m7)) 1

/-- SBU, long (R211). -/
def execSbuL (x1 : BitVec 3) (x2 : BitVec 4) (i m : Bool) (m16 : BitVec 16) (s : State) : StepOutcome :=
  aluRegister State.setA sbuOp (s.longRef true (s.longIndex x1 x2) i m false m16) 2

/-- SBUH, long (R212). -/
def execSbuhL (x1 : BitVec 3) (x2 : BitVec 4) (i m : Bool) (m16 : BitVec 16) (s : State) : StepOutcome :=
  aluRegister State.setA sbuOp (s.longRef true (s.longIndex x1 x2) i m true m16) 2

/-- SBUR and SBUHR, short (R213, R214). -/
def execSburS (m7 : BitVec 7) (s : State) : StepOutcome :=
  aluReturn sbuOp (s.direct (s.shortReturnRef m7)) 1

/-- SBUR, long (R213). -/
def execSburL (x2 : BitVec 4) (i m : Bool) (m16 : BitVec 16) (s : State) : StepOutcome :=
  aluReturn sbuOp (s.longRef true (s.returnIndex x2) i m false m16) 2

/-- SBUHR, long (R214). -/
def execSbuhrL (x2 : BitVec 4) (i m : Bool) (m16 : BitVec 16) (s : State) : StepOutcome :=
  aluReturn sbuOp (s.longRef true (s.returnIndex x2) i m true m16) 2

/-- SBL and SBLH, short (R215, R216). -/
def execSblS (x1 : BitVec 3) (m7 : BitVec 7) (s : State) : StepOutcome :=
  aluRegister State.setB sblOp (s.direct (s.shortRef x1 m7)) 1

/-- SBL, long (R215). -/
def execSblL (x1 : BitVec 3) (x2 : BitVec 4) (i m : Bool) (m16 : BitVec 16) (s : State) : StepOutcome :=
  aluRegister State.setB sblOp (s.longRef true (s.longIndex x1 x2) i m false m16) 2

/-- SBLH, long (R216). -/
def execSblhL (x1 : BitVec 3) (x2 : BitVec 4) (i m : Bool) (m16 : BitVec 16) (s : State) : StepOutcome :=
  aluRegister State.setB sblOp (s.longRef true (s.longIndex x1 x2) i m true m16) 2

/-- SBLR and SBLHR, short (R217, R218). -/
def execSblrS (m7 : BitVec 7) (s : State) : StepOutcome :=
  aluReturn sblOp (s.direct (s.shortReturnRef m7)) 1

/-- SBLR, long (R217). -/
def execSblrL (x2 : BitVec 4) (i m : Bool) (m16 : BitVec 16) (s : State) : StepOutcome :=
  aluReturn sblOp (s.longRef true (s.returnIndex x2) i m false m16) 2

/-- SBLHR, long (R218). -/
def execSblhrL (x2 : BitVec 4) (i m : Bool) (m16 : BitVec 16) (s : State) : StepOutcome :=
  aluReturn sblOp (s.longRef true (s.returnIndex x2) i m true m16) 2

/-- MUL and MULH, short (R219, R220). -/
def execMulS (x1 : BitVec 3) (m7 : BitVec 7) (s : State) : StepOutcome :=
  regOperation mulOp (s.direct (s.shortRef x1 m7)) 1

/-- MUL, long (R219). -/
def execMulL (x1 : BitVec 3) (x2 : BitVec 4) (i m : Bool) (m16 : BitVec 16) (s : State) : StepOutcome :=
  regOperation mulOp (s.longRef true (s.longIndex x1 x2) i m false m16) 2

/-- MULH, long (R220). -/
def execMulhL (x1 : BitVec 3) (x2 : BitVec 4) (i m : Bool) (m16 : BitVec 16) (s : State) : StepOutcome :=
  regOperation mulOp (s.longRef true (s.longIndex x1 x2) i m true m16) 2

/-- MULR and MULHR, short (R221, R222). -/
def execMulrS (m7 : BitVec 7) (s : State) : StepOutcome :=
  regReturn mulOp (s.direct (s.shortReturnRef m7)) 1

/-- MULR, long (R221). -/
def execMulrL (x2 : BitVec 4) (i m : Bool) (m16 : BitVec 16) (s : State) : StepOutcome :=
  regReturn mulOp (s.longRef true (s.returnIndex x2) i m false m16) 2

/-- MULHR, long (R222). -/
def execMulhrL (x2 : BitVec 4) (i m : Bool) (m16 : BitVec 16) (s : State) : StepOutcome :=
  regReturn mulOp (s.longRef true (s.returnIndex x2) i m true m16) 2

/-- DVD and DVDH, short (R223, R224). -/
def execDvdS (x1 : BitVec 3) (m7 : BitVec 7) (s : State) : StepOutcome :=
  regOperation dvdOp (s.direct (s.shortRef x1 m7)) 1

/-- DVD, long (R223). -/
def execDvdL (x1 : BitVec 3) (x2 : BitVec 4) (i m : Bool) (m16 : BitVec 16) (s : State) : StepOutcome :=
  regOperation dvdOp (s.longRef true (s.longIndex x1 x2) i m false m16) 2

/-- DVDH, long (R224). -/
def execDvdhL (x1 : BitVec 3) (x2 : BitVec 4) (i m : Bool) (m16 : BitVec 16) (s : State) : StepOutcome :=
  regOperation dvdOp (s.longRef true (s.longIndex x1 x2) i m true m16) 2

/-- DVDR and DVDHR, short (R225, R226). -/
def execDvdrS (m7 : BitVec 7) (s : State) : StepOutcome :=
  regReturn dvdOp (s.direct (s.shortReturnRef m7)) 1

/-- DVDR, long (R225). -/
def execDvdrL (x2 : BitVec 4) (i m : Bool) (m16 : BitVec 16) (s : State) : StepOutcome :=
  regReturn dvdOp (s.longRef true (s.returnIndex x2) i m false m16) 2

/-- DVDHR, long (R226). -/
def execDvdhrL (x2 : BitVec 4) (i m : Bool) (m16 : BitVec 16) (s : State) : StepOutcome :=
  regReturn dvdOp (s.longRef true (s.returnIndex x2) i m true m16) 2

end Sys2Proof.Machine
end

