-- ==== Sys2Proof/Machine/Numeric.lean ====
section
/-! DEFINITION. Floating point numbers: the two formats, normalization and rounding (20_memory.md R88, R90;
42_float.md R261, R262, R275, R277). A number is an integer mantissa times a power of two. -/

namespace Sys2Proof.Machine

/-- A value `mant * 2 ^ exp`, exact. -/
structure Dyadic where
  mant : Int
  exp : Int
deriving DecidableEq, Repr

/-- The 24 bit mantissa s(w[0] ∥ w[9:31]) of a single precision word (R88). -/
def mant32 (w : Word32) : Int := (w.extractLsb' 31 1 ++ w.extractLsb' 0 23).toInt

/-- The exponent field w[1:8] (R88). -/
def exp32 (w : Word32) : BitVec 8 := w.extractLsb' 23 8

/-- FVal32 (R88). -/
def value32 (w : Word32) : Dyadic := ⟨mant32 w, (exp32 w).toNat - 151⟩

/-- Normalized32: bit 9 differs from bit 0 (R88). -/
def normalized32 (w : Word32) : Bool := w.getLsbD 22 != w.getLsbD 31

/-- The 48 bit mantissa s(d[0] ∥ d[9:55]) of a double precision word (R90). -/
def mant64 (d : BitVec 64) : Int := (d.extractLsb' 63 1 ++ d.extractLsb' 8 47).toInt

/-- The exponent field d[1:8] (R90). -/
def exp64 (d : BitVec 64) : BitVec 8 := d.extractLsb' 55 8

/-- FVal64 (R90). -/
def value64 (d : BitVec 64) : Dyadic := ⟨mant64 d, (exp64 d).toNat - 175⟩

/-- Normalized64: bit 9 differs from bit 0 (R90). -/
def normalized64 (d : BitVec 64) : Bool := d.getLsbD 54 != d.getLsbD 63

/-- The part of a double operand that is the number: bits 56..63 are ignored (R262, D16). -/
def numberPart (d : BitVec 64) : BitVec 64 := d.extractLsb' 8 56 ++ 0#8

/-- The exact product. -/
def Dyadic.mul (x y : Dyadic) : Dyadic := ⟨x.mant * y.mant, x.exp + y.exp⟩

/-- The exact sum, over the smaller exponent. -/
def Dyadic.add (x y : Dyadic) : Dyadic :=
  let e := min x.exp y.exp
  ⟨x.mant * 2 ^ (x.exp - e).toNat + y.mant * 2 ^ (y.exp - e).toNat, e⟩

/-- The exact negation. -/
def Dyadic.neg (x : Dyadic) : Dyadic := ⟨-x.mant, x.exp⟩

/-- A value that rounds as the exact quotient x / y does, y nonzero: 64 more bits of the quotient, rounded down, and a
last bit that says whether anything is left over. -/
def Dyadic.div (x y : Dyadic) : Dyadic :=
  let num := (if y.mant < 0 then -x.mant else x.mant) * 2 ^ 64
  let den := if y.mant < 0 then -y.mant else y.mant
  ⟨2 * (num / den) + (if num % den = 0 then 0 else 1), x.exp - y.exp - 65⟩

/-- How many binary digits a natural number has. -/
def bitLength (n : Nat) : Nat := if n = 0 then 0 else n.log2 + 1

/-- The digits of a mantissa besides its sign: the least w with -2^w ≤ m < 2^w. -/
def digits (m : Int) : Nat := if m < 0 then bitLength (-m - 1).toNat else bitLength m.toNat

/-- A mantissa of `p` bits and its exponent field, where that lies in 0..255 (R275). -/
def inRange (m e : Int) : Option (Int × Nat) := if 0 ≤ e ∧ e ≤ 255 then some (m, e.toNat) else none

/-- A mantissa one past the normalized ones comes back as the next binade's (R261). -/
def renormalize (p : Nat) (m e : Int) : Int × Int :=
  if m = 2 ^ (p - 1) then (2 ^ (p - 2), e + 1)
  else if m = -2 ^ (p - 2) then (-2 ^ (p - 1), e - 1)
  else (m, e)

/-- Rounds_n for a nonzero value (R262): the mantissa of `p` bits and the exponent field of one of the two normalized
neighbours, the upper one if `up`; an exact value as it is; none where a neighbour's exponent field does not fit
(R275, log 11). -/
def roundTo (p : Nat) (x : Dyadic) (up : Bool) : Option (Int × Nat) :=
  let w := digits x.mant
  let e := x.exp + w + 128
  if w ≤ p - 1 then inRange (x.mant * 2 ^ (p - 1 - w)) e
  else
    let d : Int := 2 ^ (w - (p - 1))
    let lo := x.mant / d
    let hi := renormalize p (lo + 1) e
    if x.mant % d = 0 then inRange lo e
    else
      match inRange lo e, inRange hi.1 hi.2 with
      | some l, some h => some (if up then h else l)
      | _, _ => none

/-- A single precision word from its mantissa and exponent field (R88). -/
def pack32 (m : Int) (e : Nat) : Word32 :=
  let v := BitVec.ofInt 24 m
  v.extractLsb' 23 1 ++ BitVec.ofNat 8 e ++ v.extractLsb' 0 23

/-- A double precision number, 56 bits, from its mantissa and exponent field (R90). -/
def pack56 (m : Int) (e : Nat) : BitVec 56 :=
  let v := BitVec.ofInt 48 m
  v.extractLsb' 47 1 ++ BitVec.ofNat 8 e ++ v.extractLsb' 0 47

/-- FZERO32 (R277). -/
def State.zero32 (s : State) : Word32 := 0#1 ++ s.cfg.fzeroExp32 ++ 0#23

/-- FZERO64, 56 bits (R277). -/
def State.zero56 (s : State) : BitVec 56 := 0#1 ++ s.cfg.fzeroExp64 ++ 0#47

/-- The single precision word of a value; none on exponent overflow or underflow (R262, R275, R277). -/
def State.round32 (s : State) (x : Dyadic) (up : Bool) : Option Word32 :=
  if x.mant = 0 then some s.zero32 else (roundTo 24 x up).map fun r => pack32 r.1 r.2

/-- The 56 bits of the double precision number of a value; none on exponent overflow or underflow (R262, R275, R277). -/
def State.round56 (s : State) (x : Dyadic) (up : Bool) : Option (BitVec 56) :=
  if x.mant = 0 then some s.zero56 else (roundTo 48 x up).map fun r => pack56 r.1 r.2

/-- A ← a single precision result, free where there is none (R275); one value is drawn. -/
def State.setSingle (s : State) (r : Option Word32) : State :=
  (s.setA (r.getD s.drawWord)).drawn

/-- AB[0:55] ← a double precision result, AB[56:63] free (D16); all of it free where there is none (R275); two values
are drawn. -/
def State.setDouble (s : State) (r : Option (BitVec 56)) : State :=
  let tail := Config.draw (s.draws + 1)
  let a := (r.map fun v => v.extractLsb' 24 32).getD s.drawWord
  let b := (r.map fun v => v.extractLsb' 0 24).getD (tail.extractLsb' 8 24)
  ((s.setA a).setB (b ++ tail.extractLsb' 0 8)).setDraws (s.draws + 2)

end Sys2Proof.Machine
end

