-- ==== Sys2Proof/Machine/FloatArith.lean ====
section
/-! DEFINITION. Floating point arithmetic (42_float.md R260 to R277). Operands are fullwords whatever SR5 and H; final
M = 1 has no meaning; no instruction reads or writes SR. -/

namespace Sys2Proof.Machine

/-- The base instruction, the operand read by `load`, 32 or 64 bits (R260, R263). -/
def floatRegister {n : Nat} (load : State → Addr → Except Fault (BitVec n × State)) (op : State → BitVec n → State)
    (ref : RefAccess) (len : Addr) : StepOutcome :=
  finish do
    let (r, s) ← ref
    if r.imm then .error .immediateOnFloat
    else do
      let (v, s1) ← load s r.addr
      .ok ((op (s1.setOar r.addr) v).advance len)

/-- Return to memory, kind 2: A is also stored if the operand came from the Fast Scratchpad (R264, R272;
41_fixed_arith.md R202). -/
def floatReturn {n : Nat} (load : State → Addr → Except Fault (BitVec n × State)) (op : State → BitVec n → State)
    (ref : RefAccess) (len : Addr) : StepOutcome :=
  finish do
    let (r, s) ← ref
    if r.imm then .error .immediateOnFloat
    else do
      let (v, s1) ← load s r.addr
      let s2 := op (s1.setOar r.addr) v
      if s1.inFast r.addr then do
        let s3 ← s2.store32 r.addr s2.regA
        .ok (s3.advance len)
      else .ok (s2.advance len)

/-- ADF: FADD32 (R263). -/
def adfOp (s : State) (w : Word32) : State :=
  s.setSingle (s.round32 ((value32 s.regA).add (value32 w))
    (Config.roundUp .fadd32 (s.regA.zeroExtend 64) (w.zeroExtend 64)))

/-- SBF: FSUB32 (R265). -/
def sbfOp (s : State) (w : Word32) : State :=
  s.setSingle (s.round32 ((value32 s.regA).add (value32 w).neg)
    (Config.roundUp .fsub32 (s.regA.zeroExtend 64) (w.zeroExtend 64)))

/-- An operand of MLF: an unnormalized number is zero (R267, R276). -/
def factor32 (w : Word32) : Dyadic := if normalized32 w then value32 w else ⟨0, 0⟩

/-- MLF: FMUL, exact in range, so that no rounding choice is left (R267). -/
def mlfOp (s : State) (w : Word32) : State :=
  s.setDouble (s.round56 ((factor32 s.regA).mul (factor32 w)) false)

/-- The dividend of DVF: zero where A is unnormalized (R269, R276). -/
def State.floatDividend (s : State) : Dyadic := if normalized32 s.regA then value64 s.regAB else ⟨0, 0⟩

/-- DVF: FDIV to A, free where the divisor is zero or unnormalized; B free (R269, D14, D15). -/
def dvfOp (s : State) (w : Word32) : State :=
  let q :=
    if normalized32 w then
      s.round32 (s.floatDividend.div (value32 w)) (Config.roundUp .fdiv (numberPart s.regAB) (w.zeroExtend 64))
    else none
  let s1 := s.setSingle q
  (s1.setB s1.drawWord).drawn

/-- AFD: FADD64 (R271). -/
def afdOp (s : State) (d : BitVec 64) : State :=
  s.setDouble (s.round56 ((value64 s.regAB).add (value64 d))
    (Config.roundUp .fadd64 (numberPart s.regAB) (numberPart d)))

/-- SFD: FSUB64 (R273). -/
def sfdOp (s : State) (d : BitVec 64) : State :=
  s.setDouble (s.round56 ((value64 s.regAB).add (value64 d).neg)
    (Config.roundUp .fsub64 (numberPart s.regAB) (numberPart d)))

/-- ADF, short (R263). -/
def execAdfS (x1 : BitVec 3) (m7 : BitVec 7) (s : State) : StepOutcome :=
  floatRegister State.load32 adfOp (s.direct (s.shortRef x1 m7)) 1

/-- ADF, long (R263). -/
def execAdfL (x1 : BitVec 3) (x2 : BitVec 4) (i m : Bool) (m16 : BitVec 16) (s : State) : StepOutcome :=
  floatRegister State.load32 adfOp (s.longRef false (s.longIndex x1 x2) i m false m16) 2

/-- ADFR, short (R264). -/
def execAdfrS (m7 : BitVec 7) (s : State) : StepOutcome :=
  floatReturn State.load32 adfOp (s.direct (s.shortReturnRef m7)) 1

/-- ADFR, long (R264). -/
def execAdfrL (x2 : BitVec 4) (i m : Bool) (m16 : BitVec 16) (s : State) : StepOutcome :=
  floatReturn State.load32 adfOp (s.longRef false (s.returnIndex x2) i m false m16) 2

/-- SBF, short (R265). -/
def execSbfS (x1 : BitVec 3) (m7 : BitVec 7) (s : State) : StepOutcome :=
  floatRegister State.load32 sbfOp (s.direct (s.shortRef x1 m7)) 1

/-- SBF, long (R265). -/
def execSbfL (x1 : BitVec 3) (x2 : BitVec 4) (i m : Bool) (m16 : BitVec 16) (s : State) : StepOutcome :=
  floatRegister State.load32 sbfOp (s.longRef false (s.longIndex x1 x2) i m false m16) 2

/-- SBFR, short (R266). -/
def execSbfrS (m7 : BitVec 7) (s : State) : StepOutcome :=
  floatReturn State.load32 sbfOp (s.direct (s.shortReturnRef m7)) 1

/-- SBFR, long (R266). -/
def execSbfrL (x2 : BitVec 4) (i m : Bool) (m16 : BitVec 16) (s : State) : StepOutcome :=
  floatReturn State.load32 sbfOp (s.longRef false (s.returnIndex x2) i m false m16) 2

/-- MLF, short (R267). -/
def execMlfS (x1 : BitVec 3) (m7 : BitVec 7) (s : State) : StepOutcome :=
  floatRegister State.load32 mlfOp (s.direct (s.shortRef x1 m7)) 1

/-- MLF, long (R267). -/
def execMlfL (x1 : BitVec 3) (x2 : BitVec 4) (i m h : Bool) (m16 : BitVec 16) (s : State) : StepOutcome :=
  floatRegister State.load32 mlfOp (s.longRef false (s.longIndex x1 x2) i m h m16) 2

/-- MLFR, short (R268). -/
def execMlfrS (m7 : BitVec 7) (s : State) : StepOutcome :=
  floatReturn State.load32 mlfOp (s.direct (s.shortReturnRef m7)) 1

/-- MLFR, long (R268). -/
def execMlfrL (x2 : BitVec 4) (i m h : Bool) (m16 : BitVec 16) (s : State) : StepOutcome :=
  floatReturn State.load32 mlfOp (s.longRef false (s.returnIndex x2) i m h m16) 2

/-- DVF, short (R269). -/
def execDvfS (x1 : BitVec 3) (m7 : BitVec 7) (s : State) : StepOutcome :=
  floatRegister State.load32 dvfOp (s.direct (s.shortRef x1 m7)) 1

/-- DVF, long (R269). -/
def execDvfL (x1 : BitVec 3) (x2 : BitVec 4) (i m h : Bool) (m16 : BitVec 16) (s : State) : StepOutcome :=
  floatRegister State.load32 dvfOp (s.longRef false (s.longIndex x1 x2) i m h m16) 2

/-- DVFR, short (R270). -/
def execDvfrS (m7 : BitVec 7) (s : State) : StepOutcome :=
  floatReturn State.load32 dvfOp (s.direct (s.shortReturnRef m7)) 1

/-- DVFR, long (R270). -/
def execDvfrL (x2 : BitVec 4) (i m h : Bool) (m16 : BitVec 16) (s : State) : StepOutcome :=
  floatReturn State.load32 dvfOp (s.longRef false (s.returnIndex x2) i m h m16) 2

/-- AFD, short (R271). -/
def execAfdS (x1 : BitVec 3) (m7 : BitVec 7) (s : State) : StepOutcome :=
  floatRegister State.load64 afdOp (s.direct (s.shortRef x1 m7)) 1

/-- AFD, long (R271). -/
def execAfdL (x1 : BitVec 3) (x2 : BitVec 4) (i m : Bool) (m16 : BitVec 16) (s : State) : StepOutcome :=
  floatRegister State.load64 afdOp (s.longRef false (s.longIndex x1 x2) i m false m16) 2

/-- AFDR, short (R272). -/
def execAfdrS (m7 : BitVec 7) (s : State) : StepOutcome :=
  floatReturn State.load64 afdOp (s.direct (s.shortReturnRef m7)) 1

/-- AFDR, long (R272). -/
def execAfdrL (x2 : BitVec 4) (i m : Bool) (m16 : BitVec 16) (s : State) : StepOutcome :=
  floatReturn State.load64 afdOp (s.longRef false (s.returnIndex x2) i m false m16) 2

/-- SFD, short (R273). -/
def execSfdS (x1 : BitVec 3) (m7 : BitVec 7) (s : State) : StepOutcome :=
  floatRegister State.load64 sfdOp (s.direct (s.shortRef x1 m7)) 1

/-- SFD, long (R273). -/
def execSfdL (x1 : BitVec 3) (x2 : BitVec 4) (i m : Bool) (m16 : BitVec 16) (s : State) : StepOutcome :=
  floatRegister State.load64 sfdOp (s.longRef false (s.longIndex x1 x2) i m false m16) 2

/-- SFDR, short (R274). -/
def execSfdrS (m7 : BitVec 7) (s : State) : StepOutcome :=
  floatReturn State.load64 sfdOp (s.direct (s.shortReturnRef m7)) 1

/-- SFDR, long (R274). -/
def execSfdrL (x2 : BitVec 4) (i m : Bool) (m16 : BitVec 16) (s : State) : StepOutcome :=
  floatReturn State.load64 sfdOp (s.longRef false (s.returnIndex x2) i m false m16) 2

end Sys2Proof.Machine
end

