-- ==== Sys2Proof/Machine/LoadStore.lean ====
section
/-! DEFINITION. Load and store instructions (40_load_store.md R160 to R176). None has the return to memory option, so
X1 = 7 is plain indexing (30_encoding.md R117); only LDS writes SR. -/

namespace Sys2Proof.Machine

/-- Load a register with the operand (R161 to R164). -/
def loadRegister (set : State → Word32 → State) (ref : RefAccess) (len : Addr) : StepOutcome :=
  finish do
    let (r, s) ← ref
    let (v, s1) ← s.operand r
    .ok ((set (s1.setOar r.addr) v).advance len)

/-- Store a register: 32 bits, or the left half where the reference is a halfword (R169 to R172). -/
def storeRegister (v : Word32) (ref : RefAccess) (len : Addr) : StepOutcome :=
  finish do
    let (r, s) ← ref
    if r.imm then .error .immediateOnStore
    else do
      let s1 ← (s.setOar r.addr).storeBack r.addr r.half v
      .ok (s1.advance len)

/-- Store the left half of A whatever SR5 or H (R173). -/
def storeHalfA (ref : RefAccess) (len : Addr) : StepOutcome :=
  finish do
    let (r, s) ← ref
    if r.imm then .error .immediateOnStore
    else do
      let s1 ← (s.setOar r.addr).store16 r.addr (s.regA.extractLsb' 16 16)
      .ok (s1.advance len)

/-- Store a fullword that holds free bits: one value is drawn (R174 to R176, D38). -/
def storeWord (w : Word32) (ref : RefAccess) (len : Addr) : StepOutcome :=
  finish do
    let (r, s) ← ref
    if r.imm then .error .immediateOnStore
    else do
      let s1 ← (s.setOar r.addr).store32 r.addr w
      .ok (s1.drawn.advance len)

/-- A reference of long LDX: the halfword option cannot be used (R165). DESIGN CHOICE, safe: it is tested before the operand
is read; the spec gives no order where both stop it (log 32). -/
def noHalf (ref : RefAccess) : RefAccess := do
  let (r, s) ← ref
  if r.half then .error .halfOnIndex else .ok (r, s)

/-- A reference of long STX: neither the immediate nor the halfword option, tested in this order (R174). -/
def noImmediateHalf (ref : RefAccess) : RefAccess := do
  let (r, s) ← ref
  if r.imm then .error .immediateOnStore else if r.half then .error .halfOnIndex else .ok (r, s)

/-- The reference of a short index register instruction: always unindexed, a fullword (30_encoding.md R113). -/
def State.shortObjectRef (s : State) (m7 : BitVec 7) : Ref := ⟨s.shortUnindexed m7, false, false⟩

/-- Load an index register with the 18 bit operand (R165). -/
def loadIndex (t : BitVec 4) (ref : RefAccess) (len : Addr) : StepOutcome :=
  finish do
    let (r, s) ← ref
    let (v, s1) ← s.indexOperand r
    .ok (((s1.setOar r.addr).setXr t v).advance len)

/-- LAE: the effective address itself, zero extended (R166, D18). -/
def loadAddress (ref : RefAccess) (len : Addr) : StepOutcome :=
  finish do
    let (r, s) ← ref
    .ok (((s.setOar r.addr).setA (r.addr.zeroExtend 32)).advance len)

/-- The word of an index register in memory: bits 14..31, the rest free (R174, D38). -/
def State.indexWord (s : State) (t : BitVec 4) : Word32 := s.drawWord.extractLsb' 0 14 ++ s.xr t

/-- LDA and LDAH, short (R161, R162). -/
def execLdaS (x1 : BitVec 3) (m7 : BitVec 7) (s : State) : StepOutcome :=
  loadRegister State.setA (s.direct (s.shortRef x1 m7)) 1

/-- LDA, long (R161). -/
def execLdaL (x1 : BitVec 3) (x2 : BitVec 4) (i m : Bool) (m16 : BitVec 16) (s : State) : StepOutcome :=
  loadRegister State.setA (s.longRef true (s.longIndex x1 x2) i m false m16) 2

/-- LDAH, long (R162). -/
def execLdahL (x1 : BitVec 3) (x2 : BitVec 4) (i m : Bool) (m16 : BitVec 16) (s : State) : StepOutcome :=
  loadRegister State.setA (s.longRef true (s.longIndex x1 x2) i m true m16) 2

/-- LDB and LDBH, short (R163, R164). -/
def execLdbS (x1 : BitVec 3) (m7 : BitVec 7) (s : State) : StepOutcome :=
  loadRegister State.setB (s.direct (s.shortRef x1 m7)) 1

/-- LDB, long (R163). -/
def execLdbL (x1 : BitVec 3) (x2 : BitVec 4) (i m : Bool) (m16 : BitVec 16) (s : State) : StepOutcome :=
  loadRegister State.setB (s.longRef true (s.longIndex x1 x2) i m false m16) 2

/-- LDBH, long (R164). -/
def execLdbhL (x1 : BitVec 3) (x2 : BitVec 4) (i m : Bool) (m16 : BitVec 16) (s : State) : StepOutcome :=
  loadRegister State.setB (s.longRef true (s.longIndex x1 x2) i m true m16) 2

/-- STA and STAH, short (R169, R170). -/
def execStaS (x1 : BitVec 3) (m7 : BitVec 7) (s : State) : StepOutcome :=
  storeRegister s.regA (s.direct (s.shortRef x1 m7)) 1

/-- STA, long (R169). -/
def execStaL (x1 : BitVec 3) (x2 : BitVec 4) (i m : Bool) (m16 : BitVec 16) (s : State) : StepOutcome :=
  storeRegister s.regA (s.longRef true (s.longIndex x1 x2) i m false m16) 2

/-- STAH, long (R170). -/
def execStahL (x1 : BitVec 3) (x2 : BitVec 4) (i m : Bool) (m16 : BitVec 16) (s : State) : StepOutcome :=
  storeRegister s.regA (s.longRef true (s.longIndex x1 x2) i m true m16) 2

/-- STB and STBH, short (R171, R172). -/
def execStbS (x1 : BitVec 3) (m7 : BitVec 7) (s : State) : StepOutcome :=
  storeRegister s.regB (s.direct (s.shortRef x1 m7)) 1

/-- STB, long (R171). -/
def execStbL (x1 : BitVec 3) (x2 : BitVec 4) (i m : Bool) (m16 : BitVec 16) (s : State) : StepOutcome :=
  storeRegister s.regB (s.longRef true (s.longIndex x1 x2) i m false m16) 2

/-- STBH, long (R172). -/
def execStbhL (x1 : BitVec 3) (x2 : BitVec 4) (i m : Bool) (m16 : BitVec 16) (s : State) : StepOutcome :=
  storeRegister s.regB (s.longRef true (s.longIndex x1 x2) i m true m16) 2

/-- STX, short: X1 names the register stored, XR0..XR7 (R174). -/
def execStxS (x1 : BitVec 3) (m7 : BitVec 7) (s : State) : StepOutcome :=
  storeWord (s.indexWord (x1.zeroExtend 4)) (s.direct (s.shortObjectRef m7)) 1

/-- STX, long: X2 names the register stored, X1 indexes (R174, 30_encoding.md R118). -/
def execStxL (x1 : BitVec 3) (x2 : BitVec 4) (i m h : Bool) (m16 : BitVec 16) (s : State) : StepOutcome :=
  storeWord (s.indexWord x2) (noImmediateHalf (s.longRef true (s.idx1 x1) i m h m16)) 2

/-- LDX, short: X1 names the register loaded, XR0..XR7 (R165). -/
def execLdxS (x1 : BitVec 3) (m7 : BitVec 7) (s : State) : StepOutcome :=
  loadIndex (x1.zeroExtend 4) (s.direct (s.shortObjectRef m7)) 1

/-- LDX, long: X2 names the register loaded, X1 indexes (R165, 30_encoding.md R118). -/
def execLdxL (x1 : BitVec 3) (x2 : BitVec 4) (i m h : Bool) (m16 : BitVec 16) (s : State) : StepOutcome :=
  loadIndex x2 (noHalf (s.longRef true (s.idx1 x1) i m h m16)) 2

/-- LAE, short (R166). -/
def execLaeS (x1 : BitVec 3) (m7 : BitVec 7) (s : State) : StepOutcome :=
  loadAddress (s.direct (s.shortRef x1 m7)) 1

/-- LAE, long: the immediate and halfword options are ignored (R166). -/
def execLaeL (x1 : BitVec 3) (x2 : BitVec 4) (i m h : Bool) (m16 : BitVec 16) (s : State) : StepOutcome :=
  loadAddress (s.longRef false (s.longIndex x1 x2) i m h m16) 2

/-- STH, short: always a halfword (R173). -/
def execSthS (x1 : BitVec 3) (m7 : BitVec 7) (s : State) : StepOutcome :=
  storeHalfA (s.direct (s.shortRef x1 m7)) 1

/-- STH, long: H is not examined (R173). -/
def execSthL (x1 : BitVec 3) (x2 : BitVec 4) (i m h : Bool) (m16 : BitVec 16) (s : State) : StepOutcome :=
  storeHalfA (s.longRef false (s.longIndex x1 x2) i m h m16) 2

/-- LDS: all of SR from a fullword, or SR0..SR7 from a right adjusted immediate (R167). -/
def execLdsL (x1 : BitVec 3) (x2 : BitVec 4) (i m : Bool) (m16 : BitVec 16) (s : State) : StepOutcome :=
  finish do
    let (r, s1) ← s.longRef false (s.longIndex x1 x2) i m true m16
    if r.imm then
      let w : Word32 := (r.addr.extractLsb' 0 16 : Half).zeroExtend 32
      .ok (((s1.setOar r.addr).setSr (s1.sr.extractLsb' 8 8 ++ srLowOfWord w)).advance 2)
    else do
      let (w, s2) ← s1.load32 r.addr
      .ok (((s2.setOar r.addr).setSr (srHighOfWord w ++ srLowOfWord w)).advance 2)

/-- STS: SR in the layout of 10_state.md R33 (R176). -/
def execStsL (x1 : BitVec 3) (x2 : BitVec 4) (i m : Bool) (m16 : BitVec 16) (s : State) : StepOutcome :=
  storeWord (srWord s.sr s.drawWord) (s.longRef false (s.longIndex x1 x2) i m true m16) 2

/-- STI: MR in the layout of 10_state.md R38 (R175). -/
def execStiL (x1 : BitVec 3) (x2 : BitVec 4) (i m : Bool) (m16 : BitVec 16) (s : State) : StepOutcome :=
  storeWord (mrWord s.mr s.drawWord) (s.longRef false (s.longIndex x1 x2) i m true m16) 2

/-- A write of MR: pending requests of levels that are now masked are cleared (60_exceptions.md R466). -/
def State.loadMask (s : State) (v : BitVec 16) : State :=
  let s1 := s.setMr v
  s1.setPending (s1.pending &&& s1.allowed)

/-- The word LDI loads MR from: a fullword, or a left adjusted immediate (R168). -/
def State.maskOperand (s : State) (r : Ref) : Except Fault (Word32 × State) :=
  if r.imm then .ok (r.addr.extractLsb' 0 16 ++ 0#16, s) else s.load32 r.addr

/-- LDI: MR from a fullword, or from a left adjusted immediate (R168). -/
def execLdiL (x1 : BitVec 3) (x2 : BitVec 4) (i m : Bool) (m16 : BitVec 16) (s : State) : StepOutcome :=
  finish do
    let (r, s1) ← s.longRef false (s.longIndex x1 x2) i m true m16
    let (w, s2) ← s1.maskOperand r
    .ok (((s2.setOar r.addr).loadMask (mrOfWord w)).advance 2)

end Sys2Proof.Machine
end

