-- ==== Sys2Proof/Machine/Index.lean ====
section
/-! DEFINITION. Index register instructions (45_index.md R350 to R355). They read or write no SR bit, A or B; bit 15 of
a pointer word is ignored. -/

namespace Sys2Proof.Machine

/-- A test of XR[t] against the operand: skip two more halfwords where it holds (R351, R352). -/
def testIndex (p : Addr → Addr → Bool) (t : BitVec 4) (ref : RefAccess) (len : Addr) : StepOutcome :=
  finish do
    let (r, s) ← ref
    let (v, s1) ← s.indexOperand r
    .ok ((s1.setOar r.addr).advance (if p (s.xr t) v then len + 2 else len))

/-- XR[t] ← op XR[t] operand (R353, R354). -/
def modifyIndex (op : Addr → Addr → Addr) (t : BitVec 4) (ref : RefAccess) (len : Addr) : StepOutcome :=
  finish do
    let (r, s) ← ref
    let (v, s1) ← s.indexOperand r
    .ok (((s1.setOar r.addr).setXr t (op (s.xr t) v)).advance len)

/-- XR[t] is less than v: the readings agree where the sign bits do, elsewhere ICL_SIGNED decides (R352, D17, log 20). -/
def State.indexLess (s : State) (x v : Addr) : Bool :=
  if x.msb = v.msb then decide (x.toNat < v.toNat)
  else if s.cfg.iclSigned then x.msb else v.msb

/-- The reference of a long index register instruction: X1 indexes, X2 names the object register (R355). -/
def State.longObjectRef (s : State) (x1 : BitVec 3) (i m : Bool) (m16 : BitVec 16) : RefAccess :=
  s.longRef false (s.idx1 x1) i m false m16

/-- ICN, short: X1 names the register tested (R351). -/
def execIcnS (x1 : BitVec 3) (m7 : BitVec 7) (s : State) : StepOutcome :=
  testIndex (fun x v => x != v) (x1.zeroExtend 4) (s.direct (s.shortObjectRef m7)) 1

/-- ICN, long: X2 names the register tested (R351). -/
def execIcnL (x1 : BitVec 3) (x2 : BitVec 4) (i m : Bool) (m16 : BitVec 16) (s : State) : StepOutcome :=
  testIndex (fun x v => x != v) x2 (s.longObjectRef x1 i m m16) 2

/-- ICL (R352). -/
def execIclL (x1 : BitVec 3) (x2 : BitVec 4) (i m : Bool) (m16 : BitVec 16) (s : State) : StepOutcome :=
  testIndex s.indexLess x2 (s.longObjectRef x1 i m m16) 2

/-- IMN, short: X1 names the register decremented (R353). -/
def execImnS (x1 : BitVec 3) (m7 : BitVec 7) (s : State) : StepOutcome :=
  modifyIndex (fun x v => x - v) (x1.zeroExtend 4) (s.direct (s.shortObjectRef m7)) 1

/-- IMN, long: X2 names the register decremented (R353). -/
def execImnL (x1 : BitVec 3) (x2 : BitVec 4) (i m : Bool) (m16 : BitVec 16) (s : State) : StepOutcome :=
  modifyIndex (fun x v => x - v) x2 (s.longObjectRef x1 i m m16) 2

/-- IMP (R354). -/
def execImpL (x1 : BitVec 3) (x2 : BitVec 4) (i m : Bool) (m16 : BitVec 16) (s : State) : StepOutcome :=
  modifyIndex (fun x v => x + v) x2 (s.longObjectRef x1 i m m16) 2

end Sys2Proof.Machine
end

