-- ==== Sys2Proof/Machine/InputOutput.lean ====
section
/-! DEFINITION. Input/output instructions (48_io.md R430 to R441). K changes no result: the instruction completes in the
same way with and without an acknowledge (R437). -/

namespace Sys2Proof.Machine

/-- An instruction that names device code 16 or 17 turns the control panel request off (R438; 60_exceptions.md R483). -/
def State.panelServed (s : State) (dc : BitVec 6) : State :=
  if dc = 16#6 ∨ dc = 17#6 then s.setPending (withBit s.pending 14 false) else s

/-- `DevOut(DC, C, K, data)` (R431, log 18). -/
def State.devOut (s : State) (dc : BitVec 6) (c k : Bool) (data : Word32) : State :=
  s.setIoLog (s.ioLog ++ [.out dc c k data])

/-- The word on the bus of an input instruction: what the device drives, free where nothing drives it (R431, log 18). -/
def State.busWord (s : State) : Word32 := s.busIn.headD s.drawWord

/-- `DevIn(DC, C, K)` has taken place (R431, log 18). -/
def State.devIn (s : State) (dc : BitVec 6) (c k : Bool) : State :=
  ((s.setIoLog (s.ioLog ++ [.inp dc c k s.busWord])).setBusIn s.busIn.tail).drawn

/-- IoEA: no index in the instruction, pointer words decoded normally with bit 15 ignored (R432). -/
def State.ioAddr (s : State) (i : Bool) (m16 : BitVec 16) : Except Fault (Addr × State) := do
  let (r, s1) ← s.longRef false 0 i false false m16
  if r.imm then .error .immediateOnIo else .ok (r.addr, s1)

/-- DOA (R433). -/
def execDoa (c : Bool) (dc : BitVec 6) (k : Bool) (s : State) : StepOutcome :=
  .next (((s.devOut dc c k s.regA).panelServed dc).advance 1)

/-- DIA (R434). -/
def execDia (c : Bool) (dc : BitVec 6) (k : Bool) (s : State) : StepOutcome :=
  .next ((((s.devIn dc c k).setA s.busWord).panelServed dc).advance 1)

/-- DOM (R435). -/
def execDom (c : Bool) (dc : BitVec 6) (i k : Bool) (m16 : BitVec 16) (s : State) : StepOutcome :=
  finish do
    let (ea, s1) ← s.ioAddr i m16
    let (w, s2) ← s1.load32 ea
    .ok ((((s2.setOar ea).devOut dc c k w).panelServed dc).advance 2)

/-- DIM (R436). -/
def execDim (c : Bool) (dc : BitVec 6) (i k : Bool) (m16 : BitVec 16) (s : State) : StepOutcome :=
  finish do
    let (ea, s1) ← s.ioAddr i m16
    let s2 ← ((s1.setOar ea).devIn dc c k).store32 ea s.busWord
    .ok ((s2.panelServed dc).advance 2)

end Sys2Proof.Machine
end

