-- ==== Sys2Proof/Machine/Jump.lean ====
section
/-! DEFINITION. Jump instructions (46_jump.md R370 to R385). No jump writes a register other than PC (and OAR); only JS
writes memory. -/

namespace Sys2Proof.Machine

/-- The target of a short jump, relative to the address of the jump itself (R370). -/
def State.relative (s : State) (p : Bool) (m7 : BitVec 7) : Addr :=
  if p then s.pc - m7.zeroExtend 18 else s.pc + m7.zeroExtend 18

/-- A jump, or the next instruction (R370). -/
def State.jumpIf (s : State) (taken : Bool) (target len : Addr) : StepOutcome :=
  .next (if taken then s.setPc target else s.advance len)

/-- A is not zero (R370). -/
def State.aNonzero (s : State) : Bool := s.regA != 0#32

/-- A is negative (R370). -/
def State.aNegative (s : State) : Bool := s.regA.msb

/-- PointerTarget(ea): the word at ea is the first of the at most 16 levels (R383). -/
def State.pointerTarget (s : State) (ea : Addr) : Except Fault (Addr × State) := do
  let (w, s1) ← s.load32 ea
  let (r, s2) ← s1.chain false 15 (s.pointerAddr w) (w.getLsbD 18) (w.getLsbD 17) (w.getLsbD 16)
  if r.imm then .error .immediateOnStore else .ok (r.addr, s2)

/-- The word JS stores: the return address in bits 14..31, the rest free (R382, D38). -/
def State.linkWord (s : State) : Word32 := s.drawWord.extractLsb' 0 14 ++ (s.pc + 2)

/-- JRU (R371). -/
def execJru (p : Bool) (m7 : BitVec 7) (s : State) : StepOutcome :=
  s.jumpIf true (s.relative p m7) 1

/-- JRN (R372). -/
def execJrn (p : Bool) (m7 : BitVec 7) (s : State) : StepOutcome :=
  s.jumpIf s.aNonzero (s.relative p m7) 1

/-- JRG (R373). -/
def execJrg (p : Bool) (m7 : BitVec 7) (s : State) : StepOutcome :=
  s.jumpIf (!s.aNegative) (s.relative p m7) 1

/-- JRL (R374). -/
def execJrl (p : Bool) (m7 : BitVec 7) (s : State) : StepOutcome :=
  s.jumpIf s.aNegative (s.relative p m7) 1

/-- JGU (R375). -/
def execJgu (m18 : BitVec 18) (s : State) : StepOutcome :=
  s.jumpIf true m18 2

/-- JAN (R376). -/
def execJan (m18 : BitVec 18) (s : State) : StepOutcome :=
  s.jumpIf s.aNonzero m18 2

/-- JAG (R377). -/
def execJag (m18 : BitVec 18) (s : State) : StepOutcome :=
  s.jumpIf (!s.aNegative) m18 2

/-- JAL (R378). -/
def execJal (m18 : BitVec 18) (s : State) : StepOutcome :=
  s.jumpIf s.aNegative m18 2

/-- JGF: instruction bit 6 tests SR11, bit 7 SR10, bit 8 SR9, bit 9 SR8 (R379). -/
def execJgf (f : BitVec 4) (m18 : BitVec 18) (s : State) : StepOutcome :=
  s.jumpIf (s.sr.extractLsb' 8 4 &&& f != 0#4) m18 2

/-- JGS: S = n selects SRn (R380). -/
def execJgs (n : BitVec 4) (m18 : BitVec 18) (s : State) : StepOutcome :=
  s.jumpIf (s.srBit n.toNat) m18 2

/-- JGW: SW = n selects switch n (R381). -/
def execJgw (sw : BitVec 2) (m18 : BitVec 18) (s : State) : StepOutcome :=
  s.jumpIf (s.switches.getLsbD sw.toNat) m18 2

/-- JS: the return address goes where the pointer at the subroutine's head says (R382, R383). -/
def execJs (x1 : BitVec 3) (m18 : BitVec 18) (s : State) : StepOutcome :=
  finish do
    let ea := m18 + s.idx1 x1
    if isOdd ea then .error .misaligned
    else do
      let (loc, s1) ← s.pointerTarget ea
      let s2 ← (s1.setOar ea).store32 loc s.linkWord
      .ok (s2.drawn.setPc (ea + 2))

end Sys2Proof.Machine
end

