-- ==== Sys2Proof/Machine/Logical.lean ====
section
/-! DEFINITION. Logical instructions, RTA, SAM and the pointer word (43_logical_rta_sam.md R300 to R309). None reads or
writes SR. -/

namespace Sys2Proof.Machine

/-- A final H = 1 on long AND, LOR, EXO or SAM has no meaning (R300, D36). DESIGN CHOICE, safe: it is tested first,
before R202's immediate option of the return to memory variants (final M = 1 and H = 1) and before the operand is read; the
spec gives no order where two reasons hold (log 32). -/
def noHalfLogical (ref : RefAccess) : RefAccess := do
  let (r, s) ← ref
  if r.half then .error .halfOnLogical else .ok (r, s)

/-- AND (R301). -/
def andOp : AluOp := fun s v => (s.regA &&& v, s.sr)

/-- LOR (R303). -/
def lorOp : AluOp := fun s v => (s.regA ||| v, s.sr)

/-- EXO (R305). -/
def exoOp : AluOp := fun s v => (s.regA ^^^ v, s.sr)

/-- RTA: pc from bits 14..31 of a fullword, with the completion of an interrupt level (R307; 60_exceptions.md R475). -/
def returnAddress (ref : RefAccess) : StepOutcome :=
  finish do
    let (r, s) ← ref
    let (w, s1) ← s.load32 r.addr
    .ok ((s1.setOar r.addr).interruptReturn r.addr w)

/-- A final M = 1 or H = 1 on long RTA has no meaning (R307, D36). -/
def noDesignator (ref : RefAccess) : RefAccess := do
  let (r, s) ← ref
  if r.imm || r.half then .error .designatorOnRta else .ok (r, s)

/-- SAM: skip two more halfwords if A and the operand have a one bit in common (R308). -/
def skipMasked (ref : RefAccess) (len : Addr) : StepOutcome :=
  finish do
    let (r, s) ← ref
    let (v, s1) ← s.operand r
    .ok ((s1.setOar r.addr).advance (if s.regA &&& v != 0#32 then len + 2 else len))

/-- AND, short (R301). -/
def execAndS (x1 : BitVec 3) (m7 : BitVec 7) (s : State) : StepOutcome :=
  aluRegister State.setA andOp (s.direct (s.shortRef x1 m7)) 1

/-- AND, long (R301). -/
def execAndL (x1 : BitVec 3) (x2 : BitVec 4) (i m h : Bool) (m16 : BitVec 16) (s : State) : StepOutcome :=
  aluRegister State.setA andOp (noHalfLogical (s.longRef true (s.longIndex x1 x2) i m h m16)) 2

/-- ANDR, short (R302). -/
def execAndrS (m7 : BitVec 7) (s : State) : StepOutcome :=
  aluReturn andOp (s.direct (s.shortReturnRef m7)) 1

/-- ANDR, long (R302). -/
def execAndrL (x2 : BitVec 4) (i m h : Bool) (m16 : BitVec 16) (s : State) : StepOutcome :=
  aluReturn andOp (noHalfLogical (s.longRef true (s.returnIndex x2) i m h m16)) 2

/-- LOR, short (R303). -/
def execLorS (x1 : BitVec 3) (m7 : BitVec 7) (s : State) : StepOutcome :=
  aluRegister State.setA lorOp (s.direct (s.shortRef x1 m7)) 1

/-- LOR, long (R303). -/
def execLorL (x1 : BitVec 3) (x2 : BitVec 4) (i m h : Bool) (m16 : BitVec 16) (s : State) : StepOutcome :=
  aluRegister State.setA lorOp (noHalfLogical (s.longRef true (s.longIndex x1 x2) i m h m16)) 2

/-- LORR, short (R304). -/
def execLorrS (m7 : BitVec 7) (s : State) : StepOutcome :=
  aluReturn lorOp (s.direct (s.shortReturnRef m7)) 1

/-- LORR, long (R304). -/
def execLorrL (x2 : BitVec 4) (i m h : Bool) (m16 : BitVec 16) (s : State) : StepOutcome :=
  aluReturn lorOp (noHalfLogical (s.longRef true (s.returnIndex x2) i m h m16)) 2

/-- EXO, short (R305). -/
def execExoS (x1 : BitVec 3) (m7 : BitVec 7) (s : State) : StepOutcome :=
  aluRegister State.setA exoOp (s.direct (s.shortRef x1 m7)) 1

/-- EXO, long (R305). -/
def execExoL (x1 : BitVec 3) (x2 : BitVec 4) (i m h : Bool) (m16 : BitVec 16) (s : State) : StepOutcome :=
  aluRegister State.setA exoOp (noHalfLogical (s.longRef true (s.longIndex x1 x2) i m h m16)) 2

/-- EXOR, short (R306). -/
def execExorS (m7 : BitVec 7) (s : State) : StepOutcome :=
  aluReturn exoOp (s.direct (s.shortReturnRef m7)) 1

/-- EXOR, long (R306). -/
def execExorL (x2 : BitVec 4) (i m h : Bool) (m16 : BitVec 16) (s : State) : StepOutcome :=
  aluReturn exoOp (noHalfLogical (s.longRef true (s.returnIndex x2) i m h m16)) 2

/-- RTA, short: always a fullword (R307). -/
def execRtaS (x1 : BitVec 3) (m7 : BitVec 7) (s : State) : StepOutcome :=
  returnAddress (s.direct (s.shortRef x1 m7))

/-- RTA, long (R307). -/
def execRtaL (x1 : BitVec 3) (x2 : BitVec 4) (i m h : Bool) (m16 : BitVec 16) (s : State) : StepOutcome :=
  returnAddress (noDesignator (s.longRef true (s.longIndex x1 x2) i m h m16))

/-- SAM, short (R308). -/
def execSamS (x1 : BitVec 3) (m7 : BitVec 7) (s : State) : StepOutcome :=
  skipMasked (s.direct (s.shortRef x1 m7)) 1

/-- SAM, long (R308). -/
def execSamL (x1 : BitVec 3) (x2 : BitVec 4) (i m h : Bool) (m16 : BitVec 16) (s : State) : StepOutcome :=
  skipMasked (noHalfLogical (s.longRef true (s.longIndex x1 x2) i m h m16)) 2

/-- PTR: "it executes as the long AND it encodes", ANDR where X1 = 7 (R309, R123). No word decodes to it. -/
def execPtr (x1 : BitVec 3) (x2 : BitVec 4) (i m : Bool) (m16 : BitVec 16) (s : State) : StepOutcome :=
  if x1 = 7#3 then
    aluReturn andOp (noHalfLogical (s.longRef true (s.returnIndex x2) i m false m16)) 2
  else
    aluRegister State.setA andOp (noHalfLogical (s.longRef true (s.longIndex x1 x2) i m false m16)) 2

end Sys2Proof.Machine
end

