-- ==== Sys2Proof/Machine/NonMemory.lean ====
section
/-! DEFINITION. Non-memory reference instructions (47_nonmem.md R400 to R415). -/

namespace Sys2Proof.Machine

/-- c < |x| for a dyadic x, without fractions (R410). -/
def aboveMinimum (c : ℚ) (x : Dyadic) : Bool :=
  decide (c.num * 2 ^ (-x.exp).toNat < x.mant.natAbs * 2 ^ x.exp.toNat * c.den)

/-- |x| < 2^31 (R410). -/
def belowMaximum (x : Dyadic) : Bool :=
  let e := min 31 x.exp
  decide (x.mant.natAbs * 2 ^ (x.exp - e).toNat < 2 ^ (31 - e).toNat)

/-- The input CFX accepts (R410). -/
def State.cfxInRange (s : State) : Bool :=
  normalized64 s.regAB && aboveMinimum s.cfg.cfxMin (value64 s.regAB) && belowMaximum (value64 s.regAB)

/-- CFX: floor(x * 2^32), or the next integer where that is not exact and `up` (R410). -/
def fixedOf (x : Dyadic) (up : Bool) : Int :=
  let e := x.exp + 32
  if 0 ≤ e then x.mant * 2 ^ e.toNat
  else
    let d : Int := 2 ^ (-e).toNat
    if x.mant % d ≠ 0 ∧ up = true then x.mant / d + 1 else x.mant / d

/-- A fixed point number s(AB) / 2^32 (R411). -/
def fixedValue (ab : BitVec 64) : Dyadic := ⟨ab.toInt, -32⟩

/-- EMI (R403). -/
def execEmi (s : State) : StepOutcome :=
  .next ((s.setSrBit 14 true).advance 1)

/-- DPI (R404). -/
def execDpi (s : State) : StepOutcome :=
  .next ((s.setSrBit 15 false).advance 1)

/-- DMI (R405). -/
def execDmi (s : State) : StepOutcome :=
  .next ((s.setSrBit 14 false).advance 1)

/-- EPI (R406). -/
def execEpi (s : State) : StepOutcome :=
  .next ((s.setSrBit 15 true).advance 1)

/-- HLT: a NOP where the test signal is not present (R407). -/
def execHlt (s : State) : StepOutcome :=
  .next ((if s.testSignal then s.setHalted true else s).advance 1)

/-- SET: F = 1 is SR8, 2 SR9, 4 SR10, 8 SR11 (R408). -/
def execSetf (f : BitVec 4) (s : State) : StepOutcome :=
  .next ((s.setSr (s.sr ||| programFlags f)).advance 1)

/-- RST (R409). -/
def execRstf (f : BitVec 4) (s : State) : StepOutcome :=
  .next ((s.setSr (s.sr &&& ~~~programFlags f)).advance 1)

/-- CFX; outside its range A and B are free (R410; 93_implementation_defined.md section 1, "A, B any value"; log 13). -/
def execCfx (s : State) : StepOutcome :=
  if s.cfxInRange then
    .next ((s.setAB (BitVec.ofInt 64 (fixedOf (value64 s.regAB) (Config.cfxUp (numberPart s.regAB))))).advance 1)
  else .next (s.freeAB.advance 1)

/-- CXF (R411). -/
def execCxf (s : State) : StepOutcome :=
  .next ((s.setDouble (s.round56 (fixedValue s.regAB) (Config.roundUp .cxf s.regAB 0))).advance 1)

/-- EAB (R412). -/
def execEab (s : State) : StepOutcome :=
  .next (((s.setA s.regB).setB s.regA).advance 1)

/-- SHM (R413). -/
def execShm (s : State) : StepOutcome :=
  .next ((s.setSrBit 5 true).advance 1)

/-- RHM (R414). -/
def execRhm (s : State) : StepOutcome :=
  .next ((s.setSrBit 5 false).advance 1)

/-- LXA: register 0 has no meaning (R415, D40). -/
def execLxa (f : BitVec 4) (s : State) : StepOutcome :=
  if f = 0#4 then .fault .lxaZero else .next ((s.setXr f (s.regA.extractLsb' 0 18)).advance 1)

/-- NOP (R402). -/
def execNop (s : State) : StepOutcome :=
  .next (s.advance 1)

end Sys2Proof.Machine
end

