-- ==== Sys2Proof/Machine/Shift.lean ====
section
/-! DEFINITION. Shift instructions (44_shift.md R330 to R338). None reads or writes SR. -/

namespace Sys2Proof.Machine

/-- The shift count E = (idx1(X1) + J) mod 256 (R330). -/
def State.shiftCount (s : State) (x1 : BitVec 3) (j : BitVec 5) : Nat :=
  ((s.idx1 x1).toNat + j.toNat) % 256

/-- SLLD (R331). -/
def execSlld (x1 : BitVec 3) (j : BitVec 5) (s : State) : StepOutcome :=
  .next ((s.setAB (s.regAB <<< s.shiftCount x1 j)).advance 1)

/-- SLCD (R332). -/
def execSlcd (x1 : BitVec 3) (j : BitVec 5) (s : State) : StepOutcome :=
  .next ((s.setAB (s.regAB.rotateLeft (s.shiftCount x1 j))).advance 1)

/-- SLL (R333). -/
def execSll (x1 : BitVec 3) (j : BitVec 5) (s : State) : StepOutcome :=
  .next ((s.setA (s.regA <<< s.shiftCount x1 j)).advance 1)

/-- SRLD (R334). -/
def execSrld (x1 : BitVec 3) (j : BitVec 5) (s : State) : StepOutcome :=
  .next ((s.setAB (s.regAB >>> s.shiftCount x1 j)).advance 1)

/-- SRAD (R335). -/
def execSrad (x1 : BitVec 3) (j : BitVec 5) (s : State) : StepOutcome :=
  .next ((s.setAB (s.regAB.sshiftRight (s.shiftCount x1 j))).advance 1)

/-- SRCD (R336). -/
def execSrcd (x1 : BitVec 3) (j : BitVec 5) (s : State) : StepOutcome :=
  .next ((s.setAB (s.regAB.rotateRight (s.shiftCount x1 j))).advance 1)

/-- SRA (R337). -/
def execSra (x1 : BitVec 3) (j : BitVec 5) (s : State) : StepOutcome :=
  .next ((s.setA (s.regA.sshiftRight (s.shiftCount x1 j))).advance 1)

/-- SRC (R338). -/
def execSrc (x1 : BitVec 3) (j : BitVec 5) (s : State) : StepOutcome :=
  .next ((s.setA (s.regA.rotateRight (s.shiftCount x1 j))).advance 1)

end Sys2Proof.Machine
end

