-- ==== Sys2Proof/Machine/Dispatch.lean ====
section
/-! DEFINITION. The meaning of each instruction, one arm per constructor. -/

namespace Sys2Proof.Machine

def exec (i : Instr) (s : State) : Host.Outcome State Fault Refusal :=
  match i with
  | .emi => Sys2Proof.Machine.execEmi s
  | .dpi => Sys2Proof.Machine.execDpi s
  | .dmi => Sys2Proof.Machine.execDmi s
  | .epi => Sys2Proof.Machine.execEpi s
  | .hlt => Sys2Proof.Machine.execHlt s
  | .setf f => Sys2Proof.Machine.execSetf f s
  | .rstf f => Sys2Proof.Machine.execRstf f s
  | .cfx => Sys2Proof.Machine.execCfx s
  | .cxf => Sys2Proof.Machine.execCxf s
  | .eab => Sys2Proof.Machine.execEab s
  | .shm => Sys2Proof.Machine.execShm s
  | .rhm => Sys2Proof.Machine.execRhm s
  | .lxa f => Sys2Proof.Machine.execLxa f s
  | .nop => Sys2Proof.Machine.execNop s
  | .slld x1 j => Sys2Proof.Machine.execSlld x1 j s
  | .slcd x1 j => Sys2Proof.Machine.execSlcd x1 j s
  | .sll x1 j => Sys2Proof.Machine.execSll x1 j s
  | .srld x1 j => Sys2Proof.Machine.execSrld x1 j s
  | .srad x1 j => Sys2Proof.Machine.execSrad x1 j s
  | .srcd x1 j => Sys2Proof.Machine.execSrcd x1 j s
  | .sra x1 j => Sys2Proof.Machine.execSra x1 j s
  | .src x1 j => Sys2Proof.Machine.execSrc x1 j s
  | .mfm x1 j => Sys2Proof.Machine.execMfm x1 j s
  | .mmf x1 j => Sys2Proof.Machine.execMmf x1 j s
  | .jru p m7 => Sys2Proof.Machine.execJru p m7 s
  | .jrn p m7 => Sys2Proof.Machine.execJrn p m7 s
  | .jrg p m7 => Sys2Proof.Machine.execJrg p m7 s
  | .jrl p m7 => Sys2Proof.Machine.execJrl p m7 s
  | .js x1 m18 => Sys2Proof.Machine.execJs x1 m18 s
  | .jgf f m18 => Sys2Proof.Machine.execJgf f m18 s
  | .jgs n m18 => Sys2Proof.Machine.execJgs n m18 s
  | .jgw sw m18 => Sys2Proof.Machine.execJgw sw m18 s
  | .jgu m18 => Sys2Proof.Machine.execJgu m18 s
  | .jan m18 => Sys2Proof.Machine.execJan m18 s
  | .jag m18 => Sys2Proof.Machine.execJag m18 s
  | .jal m18 => Sys2Proof.Machine.execJal m18 s
  | .doa c dc k => Sys2Proof.Machine.execDoa c dc k s
  | .dia c dc k => Sys2Proof.Machine.execDia c dc k s
  | .dom c dc ind k m16 => Sys2Proof.Machine.execDom c dc ind k m16 s
  | .dim c dc ind k m16 => Sys2Proof.Machine.execDim c dc ind k m16 s
  | .ldaS x1 m7 => Sys2Proof.Machine.execLdaS x1 m7 s
  | .ldaL x1 x2 ind m m16 => Sys2Proof.Machine.execLdaL x1 x2 ind m m16 s
  | .ldahL x1 x2 ind m m16 => Sys2Proof.Machine.execLdahL x1 x2 ind m m16 s
  | .ldbS x1 m7 => Sys2Proof.Machine.execLdbS x1 m7 s
  | .ldbL x1 x2 ind m m16 => Sys2Proof.Machine.execLdbL x1 x2 ind m m16 s
  | .ldbhL x1 x2 ind m m16 => Sys2Proof.Machine.execLdbhL x1 x2 ind m m16 s
  | .staS x1 m7 => Sys2Proof.Machine.execStaS x1 m7 s
  | .staL x1 x2 ind m m16 => Sys2Proof.Machine.execStaL x1 x2 ind m m16 s
  | .stahL x1 x2 ind m m16 => Sys2Proof.Machine.execStahL x1 x2 ind m m16 s
  | .stbS x1 m7 => Sys2Proof.Machine.execStbS x1 m7 s
  | .stbL x1 x2 ind m m16 => Sys2Proof.Machine.execStbL x1 x2 ind m m16 s
  | .stbhL x1 x2 ind m m16 => Sys2Proof.Machine.execStbhL x1 x2 ind m m16 s
  | .stxS x1 m7 => Sys2Proof.Machine.execStxS x1 m7 s
  | .stxL x1 x2 ind m h m16 => Sys2Proof.Machine.execStxL x1 x2 ind m h m16 s
  | .ldxS x1 m7 => Sys2Proof.Machine.execLdxS x1 m7 s
  | .ldxL x1 x2 ind m h m16 => Sys2Proof.Machine.execLdxL x1 x2 ind m h m16 s
  | .laeS x1 m7 => Sys2Proof.Machine.execLaeS x1 m7 s
  | .laeL x1 x2 ind m h m16 => Sys2Proof.Machine.execLaeL x1 x2 ind m h m16 s
  | .sthS x1 m7 => Sys2Proof.Machine.execSthS x1 m7 s
  | .sthL x1 x2 ind m h m16 => Sys2Proof.Machine.execSthL x1 x2 ind m h m16 s
  | .rtaS x1 m7 => Sys2Proof.Machine.execRtaS x1 m7 s
  | .rtaL x1 x2 ind m h m16 => Sys2Proof.Machine.execRtaL x1 x2 ind m h m16 s
  | .samS x1 m7 => Sys2Proof.Machine.execSamS x1 m7 s
  | .samL x1 x2 ind m h m16 => Sys2Proof.Machine.execSamL x1 x2 ind m h m16 s
  | .icnS x1 m7 => Sys2Proof.Machine.execIcnS x1 m7 s
  | .icnL x1 x2 ind m m16 => Sys2Proof.Machine.execIcnL x1 x2 ind m m16 s
  | .iclL x1 x2 ind m m16 => Sys2Proof.Machine.execIclL x1 x2 ind m m16 s
  | .imnS x1 m7 => Sys2Proof.Machine.execImnS x1 m7 s
  | .imnL x1 x2 ind m m16 => Sys2Proof.Machine.execImnL x1 x2 ind m m16 s
  | .impL x1 x2 ind m m16 => Sys2Proof.Machine.execImpL x1 x2 ind m m16 s
  | .ldsL x1 x2 ind m m16 => Sys2Proof.Machine.execLdsL x1 x2 ind m m16 s
  | .stsL x1 x2 ind m m16 => Sys2Proof.Machine.execStsL x1 x2 ind m m16 s
  | .stiL x1 x2 ind m m16 => Sys2Proof.Machine.execStiL x1 x2 ind m m16 s
  | .ldiL x1 x2 ind m m16 => Sys2Proof.Machine.execLdiL x1 x2 ind m m16 s
  | .aduS x1 m7 => Sys2Proof.Machine.execAduS x1 m7 s
  | .aduL x1 x2 ind m m16 => Sys2Proof.Machine.execAduL x1 x2 ind m m16 s
  | .aduhL x1 x2 ind m m16 => Sys2Proof.Machine.execAduhL x1 x2 ind m m16 s
  | .adurS m7 => Sys2Proof.Machine.execAdurS m7 s
  | .adurL x2 ind m m16 => Sys2Proof.Machine.execAdurL x2 ind m m16 s
  | .aduhrL x2 ind m m16 => Sys2Proof.Machine.execAduhrL x2 ind m m16 s
  | .adlS x1 m7 => Sys2Proof.Machine.execAdlS x1 m7 s
  | .adlL x1 x2 ind m m16 => Sys2Proof.Machine.execAdlL x1 x2 ind m m16 s
  | .adlhL x1 x2 ind m m16 => Sys2Proof.Machine.execAdlhL x1 x2 ind m m16 s
  | .adlrS m7 => Sys2Proof.Machine.execAdlrS m7 s
  | .adlrL x2 ind m m16 => Sys2Proof.Machine.execAdlrL x2 ind m m16 s
  | .adlhrL x2 ind m m16 => Sys2Proof.Machine.execAdlhrL x2 ind m m16 s
  | .sbuS x1 m7 => Sys2Proof.Machine.execSbuS x1 m7 s
  | .sbuL x1 x2 ind m m16 => Sys2Proof.Machine.execSbuL x1 x2 ind m m16 s
  | .sbuhL x1 x2 ind m m16 => Sys2Proof.Machine.execSbuhL x1 x2 ind m m16 s
  | .sburS m7 => Sys2Proof.Machine.execSburS m7 s
  | .sburL x2 ind m m16 => Sys2Proof.Machine.execSburL x2 ind m m16 s
  | .sbuhrL x2 ind m m16 => Sys2Proof.Machine.execSbuhrL x2 ind m m16 s
  | .sblS x1 m7 => Sys2Proof.Machine.execSblS x1 m7 s
  | .sblL x1 x2 ind m m16 => Sys2Proof.Machine.execSblL x1 x2 ind m m16 s
  | .sblhL x1 x2 ind m m16 => Sys2Proof.Machine.execSblhL x1 x2 ind m m16 s
  | .sblrS m7 => Sys2Proof.Machine.execSblrS m7 s
  | .sblrL x2 ind m m16 => Sys2Proof.Machine.execSblrL x2 ind m m16 s
  | .sblhrL x2 ind m m16 => Sys2Proof.Machine.execSblhrL x2 ind m m16 s
  | .mulS x1 m7 => Sys2Proof.Machine.execMulS x1 m7 s
  | .mulL x1 x2 ind m m16 => Sys2Proof.Machine.execMulL x1 x2 ind m m16 s
  | .mulhL x1 x2 ind m m16 => Sys2Proof.Machine.execMulhL x1 x2 ind m m16 s
  | .mulrS m7 => Sys2Proof.Machine.execMulrS m7 s
  | .mulrL x2 ind m m16 => Sys2Proof.Machine.execMulrL x2 ind m m16 s
  | .mulhrL x2 ind m m16 => Sys2Proof.Machine.execMulhrL x2 ind m m16 s
  | .dvdS x1 m7 => Sys2Proof.Machine.execDvdS x1 m7 s
  | .dvdL x1 x2 ind m m16 => Sys2Proof.Machine.execDvdL x1 x2 ind m m16 s
  | .dvdhL x1 x2 ind m m16 => Sys2Proof.Machine.execDvdhL x1 x2 ind m m16 s
  | .dvdrS m7 => Sys2Proof.Machine.execDvdrS m7 s
  | .dvdrL x2 ind m m16 => Sys2Proof.Machine.execDvdrL x2 ind m m16 s
  | .dvdhrL x2 ind m m16 => Sys2Proof.Machine.execDvdhrL x2 ind m m16 s
  | .adfS x1 m7 => Sys2Proof.Machine.execAdfS x1 m7 s
  | .adfL x1 x2 ind m m16 => Sys2Proof.Machine.execAdfL x1 x2 ind m m16 s
  | .adfrS m7 => Sys2Proof.Machine.execAdfrS m7 s
  | .adfrL x2 ind m m16 => Sys2Proof.Machine.execAdfrL x2 ind m m16 s
  | .sbfS x1 m7 => Sys2Proof.Machine.execSbfS x1 m7 s
  | .sbfL x1 x2 ind m m16 => Sys2Proof.Machine.execSbfL x1 x2 ind m m16 s
  | .sbfrS m7 => Sys2Proof.Machine.execSbfrS m7 s
  | .sbfrL x2 ind m m16 => Sys2Proof.Machine.execSbfrL x2 ind m m16 s
  | .mlfS x1 m7 => Sys2Proof.Machine.execMlfS x1 m7 s
  | .mlfL x1 x2 ind m h m16 => Sys2Proof.Machine.execMlfL x1 x2 ind m h m16 s
  | .mlfrS m7 => Sys2Proof.Machine.execMlfrS m7 s
  | .mlfrL x2 ind m h m16 => Sys2Proof.Machine.execMlfrL x2 ind m h m16 s
  | .dvfS x1 m7 => Sys2Proof.Machine.execDvfS x1 m7 s
  | .dvfL x1 x2 ind m h m16 => Sys2Proof.Machine.execDvfL x1 x2 ind m h m16 s
  | .dvfrS m7 => Sys2Proof.Machine.execDvfrS m7 s
  | .dvfrL x2 ind m h m16 => Sys2Proof.Machine.execDvfrL x2 ind m h m16 s
  | .afdS x1 m7 => Sys2Proof.Machine.execAfdS x1 m7 s
  | .afdL x1 x2 ind m m16 => Sys2Proof.Machine.execAfdL x1 x2 ind m m16 s
  | .afdrS m7 => Sys2Proof.Machine.execAfdrS m7 s
  | .afdrL x2 ind m m16 => Sys2Proof.Machine.execAfdrL x2 ind m m16 s
  | .sfdS x1 m7 => Sys2Proof.Machine.execSfdS x1 m7 s
  | .sfdL x1 x2 ind m m16 => Sys2Proof.Machine.execSfdL x1 x2 ind m m16 s
  | .sfdrS m7 => Sys2Proof.Machine.execSfdrS m7 s
  | .sfdrL x2 ind m m16 => Sys2Proof.Machine.execSfdrL x2 ind m m16 s
  | .andS x1 m7 => Sys2Proof.Machine.execAndS x1 m7 s
  | .andL x1 x2 ind m h m16 => Sys2Proof.Machine.execAndL x1 x2 ind m h m16 s
  | .andrS m7 => Sys2Proof.Machine.execAndrS m7 s
  | .andrL x2 ind m h m16 => Sys2Proof.Machine.execAndrL x2 ind m h m16 s
  | .lorS x1 m7 => Sys2Proof.Machine.execLorS x1 m7 s
  | .lorL x1 x2 ind m h m16 => Sys2Proof.Machine.execLorL x1 x2 ind m h m16 s
  | .lorrS m7 => Sys2Proof.Machine.execLorrS m7 s
  | .lorrL x2 ind m h m16 => Sys2Proof.Machine.execLorrL x2 ind m h m16 s
  | .exoS x1 m7 => Sys2Proof.Machine.execExoS x1 m7 s
  | .exoL x1 x2 ind m h m16 => Sys2Proof.Machine.execExoL x1 x2 ind m h m16 s
  | .exorS m7 => Sys2Proof.Machine.execExorS m7 s
  | .exorL x2 ind m h m16 => Sys2Proof.Machine.execExorL x2 ind m h m16 s
  | .ptr x1 x2 ind m m16 => Sys2Proof.Machine.execPtr x1 x2 ind m m16 s

end Sys2Proof.Machine
end

