-- ==== Sys2Proof/Machine/Environment.lean ====
section
/-! DEFINITION. The conclusion of a step: what the outside world does (20_memory.md R80; 60_exceptions.md R465, R466),
then the recognition point (R468). -/

namespace Sys2Proof.Machine

/-- `Request(L)` for each L of a set: latched where the level is allowed, lost elsewhere (60_exceptions.md R466, D42). -/
def State.request (s : State) (levels : BitVec 16) : State :=
  s.setPending (s.pending ||| (levels &&& s.allowed))

/-- One entry of `arrivals` (log 16). -/
def State.arrive (s : State) (a : Arrival) : State :=
  let s1 := (s.setLines (a.switches.getD s.switches) (a.testSignal.getD s.testSignal)).request a.requests
  let s2 := s1.setIoDeferred (s1.ioDeferred ++ a.ioWrites)
  if a.resume then s2.setHalted false else s2

/-- What the outside world does in one step (log 16). -/
def State.environment (s : State) : State :=
  match s.arrivals with
  | [] => s.flushIo
  | a :: rest => ((s.setArrivals rest).arrive a).flushIo

/-- The conclusion of a step, and a moment of the halted state: the outside world, then the recognition point (R468). -/
def State.conclude (s : State) : Except Fault State := s.environment.recognise

end Sys2Proof.Machine
end

