-- ==== Sys2Proof/WellFormed.lean ====
section
/-! DEFINITION. Which terms of `Instr` are what the decoder can answer (30_encoding.md R123): the plain form of an
instruction that has a return to memory variant "cannot contain a 7" in X1 (41_fixed_arith.md R202), since that
pattern is the variant; and a pointer word "takes no part in decoding" (R123, 43_logical_rta_sam.md R309). Every
other field may hold any value. -/

namespace Sys2Proof

/-- X1 = 7 names the return to memory option (30_encoding.md R117). -/
def notReturnX1 (x1 : BitVec 3) : Bool := x1 != 7#3

/-- The instructions the decoder can answer. -/
def WellFormed : Instr → Bool
  | .emi => true
  | .dpi => true
  | .dmi => true
  | .epi => true
  | .hlt => true
  | .setf _ => true
  | .rstf _ => true
  | .cfx => true
  | .cxf => true
  | .eab => true
  | .shm => true
  | .rhm => true
  | .lxa _ => true
  | .nop => true
  | .slld _ _ => true
  | .slcd _ _ => true
  | .sll _ _ => true
  | .srld _ _ => true
  | .srad _ _ => true
  | .srcd _ _ => true
  | .sra _ _ => true
  | .src _ _ => true
  | .mfm _ _ => true
  | .mmf _ _ => true
  | .jru _ _ => true
  | .jrn _ _ => true
  | .jrg _ _ => true
  | .jrl _ _ => true
  | .js _ _ => true
  | .jgf _ _ => true
  | .jgs _ _ => true
  | .jgw _ _ => true
  | .jgu _ => true
  | .jan _ => true
  | .jag _ => true
  | .jal _ => true
  | .doa _ _ _ => true
  | .dia _ _ _ => true
  | .dom _ _ _ _ _ => true
  | .dim _ _ _ _ _ => true
  | .ldaS _ _ => true
  | .ldaL _ _ _ _ _ => true
  | .ldahL _ _ _ _ _ => true
  | .ldbS _ _ => true
  | .ldbL _ _ _ _ _ => true
  | .ldbhL _ _ _ _ _ => true
  | .staS _ _ => true
  | .staL _ _ _ _ _ => true
  | .stahL _ _ _ _ _ => true
  | .stbS _ _ => true
  | .stbL _ _ _ _ _ => true
  | .stbhL _ _ _ _ _ => true
  | .stxS _ _ => true
  | .stxL _ _ _ _ _ _ => true
  | .ldxS _ _ => true
  | .ldxL _ _ _ _ _ _ => true
  | .laeS _ _ => true
  | .laeL _ _ _ _ _ _ => true
  | .sthS _ _ => true
  | .sthL _ _ _ _ _ _ => true
  | .rtaS _ _ => true
  | .rtaL _ _ _ _ _ _ => true
  | .samS _ _ => true
  | .samL _ _ _ _ _ _ => true
  | .icnS _ _ => true
  | .icnL _ _ _ _ _ => true
  | .iclL _ _ _ _ _ => true
  | .imnS _ _ => true
  | .imnL _ _ _ _ _ => true
  | .impL _ _ _ _ _ => true
  | .ldsL _ _ _ _ _ => true
  | .stsL _ _ _ _ _ => true
  | .stiL _ _ _ _ _ => true
  | .ldiL _ _ _ _ _ => true
  | .aduS x1 _ => notReturnX1 x1
  | .aduL x1 _ _ _ _ => notReturnX1 x1
  | .aduhL x1 _ _ _ _ => notReturnX1 x1
  | .adurS _ => true
  | .adurL _ _ _ _ => true
  | .aduhrL _ _ _ _ => true
  | .adlS x1 _ => notReturnX1 x1
  | .adlL x1 _ _ _ _ => notReturnX1 x1
  | .adlhL x1 _ _ _ _ => notReturnX1 x1
  | .adlrS _ => true
  | .adlrL _ _ _ _ => true
  | .adlhrL _ _ _ _ => true
  | .sbuS x1 _ => notReturnX1 x1
  | .sbuL x1 _ _ _ _ => notReturnX1 x1
  | .sbuhL x1 _ _ _ _ => notReturnX1 x1
  | .sburS _ => true
  | .sburL _ _ _ _ => true
  | .sbuhrL _ _ _ _ => true
  | .sblS x1 _ => notReturnX1 x1
  | .sblL x1 _ _ _ _ => notReturnX1 x1
  | .sblhL x1 _ _ _ _ => notReturnX1 x1
  | .sblrS _ => true
  | .sblrL _ _ _ _ => true
  | .sblhrL _ _ _ _ => true
  | .mulS x1 _ => notReturnX1 x1
  | .mulL x1 _ _ _ _ => notReturnX1 x1
  | .mulhL x1 _ _ _ _ => notReturnX1 x1
  | .mulrS _ => true
  | .mulrL _ _ _ _ => true
  | .mulhrL _ _ _ _ => true
  | .dvdS x1 _ => notReturnX1 x1
  | .dvdL x1 _ _ _ _ => notReturnX1 x1
  | .dvdhL x1 _ _ _ _ => notReturnX1 x1
  | .dvdrS _ => true
  | .dvdrL _ _ _ _ => true
  | .dvdhrL _ _ _ _ => true
  | .adfS x1 _ => notReturnX1 x1
  | .adfL x1 _ _ _ _ => notReturnX1 x1
  | .adfrS _ => true
  | .adfrL _ _ _ _ => true
  | .sbfS x1 _ => notReturnX1 x1
  | .sbfL x1 _ _ _ _ => notReturnX1 x1
  | .sbfrS _ => true
  | .sbfrL _ _ _ _ => true
  | .mlfS x1 _ => notReturnX1 x1
  | .mlfL x1 _ _ _ _ _ => notReturnX1 x1
  | .mlfrS _ => true
  | .mlfrL _ _ _ _ _ => true
  | .dvfS x1 _ => notReturnX1 x1
  | .dvfL x1 _ _ _ _ _ => notReturnX1 x1
  | .dvfrS _ => true
  | .dvfrL _ _ _ _ _ => true
  | .afdS x1 _ => notReturnX1 x1
  | .afdL x1 _ _ _ _ => notReturnX1 x1
  | .afdrS _ => true
  | .afdrL _ _ _ _ => true
  | .sfdS x1 _ => notReturnX1 x1
  | .sfdL x1 _ _ _ _ => notReturnX1 x1
  | .sfdrS _ => true
  | .sfdrL _ _ _ _ => true
  | .andS x1 _ => notReturnX1 x1
  | .andL x1 _ _ _ _ _ => notReturnX1 x1
  | .andrS _ => true
  | .andrL _ _ _ _ _ => true
  | .lorS x1 _ => notReturnX1 x1
  | .lorL x1 _ _ _ _ _ => notReturnX1 x1
  | .lorrS _ => true
  | .lorrL _ _ _ _ _ => true
  | .exoS x1 _ => notReturnX1 x1
  | .exoL x1 _ _ _ _ _ => notReturnX1 x1
  | .exorS _ => true
  | .exorL _ _ _ _ _ => true
  | .ptr _ _ _ _ _ => false

end Sys2Proof
end

