-- ==== Sys2Proof/Decode.lean ====
section
/-! DEFINITION. The decoder, total on any bytes, and the encoder, both from the formats of 30_encoding.md R101 to
R108 and the operation codes of R106, R120, R121, R122. Bit `n` of a 16 bit instruction of the manual is bit
`15 - n` of a `BitVec 16`, bit `n` of a 32 bit one is bit `31 - n` of a `BitVec 32`. -/

namespace Sys2Proof

/-- Why a sequence of bytes is no instruction. -/
inductive DecodeError where
  /-- Non-memory secondary codes 0000 and 1111 (47_nonmem.md R416). -/
  | unassignedNonMemory
  /-- A long jump pattern outside 30_encoding.md R106 (R124). -/
  | unassignedLongJump
  /-- A short instruction's operation code given as a fullword (R100); no fetched word gives it. -/
  | shortGroup
  /-- Fewer bytes than the instruction has. -/
  | truncated
deriving DecidableEq, Repr

/-- The length rule: operation codes 00000, 00001 and 00101 are always short, otherwise bit 5 tells (R100). -/
def isLong (h : Half) : Bool :=
  let op := h.extractLsb' 11 5
  op != 0b00000#5 && op != 0b00001#5 && op != 0b00101#5 && h.getLsbD 10

/-- Secondary operation codes of the non-memory group, bits 5..8 (R121); bits 9..15 or 9..11 are ignored (R125). -/
def decodeNonMemory (h : Half) : Except DecodeError Instr :=
  let f := h.extractLsb' 0 4
  match (h.extractLsb' 7 4).toNat with
  | 1 => .ok .emi
  | 2 => .ok .dpi
  | 3 => .ok .dmi
  | 4 => .ok .epi
  | 5 => .ok .hlt
  | 6 => .ok (.setf f)
  | 7 => .ok (.rstf f)
  | 8 => .ok .cfx
  | 9 => .ok .cxf
  | 10 => .ok .eab
  | 11 => .ok .shm
  | 12 => .ok .rhm
  | 13 => .ok (.lxa f)
  | 14 => .ok .nop
  | _ => .error .unassignedNonMemory

/-- Secondary operation codes of the shift group, bits 5, 9 and 10 (R103, R122). -/
def decodeShift (h : Half) : Instr :=
  let x1 := h.extractLsb' 7 3
  let j := h.extractLsb' 0 5
  match h.getLsbD 10, h.getLsbD 6, h.getLsbD 5 with
  | false, false, false => .slld x1 j
  | false, false, true => .slcd x1 j
  | false, true, false => .sll x1 j
  | false, true, true => .srld x1 j
  | true, false, false => .srad x1 j
  | true, false, true => .srcd x1 j
  | true, true, false => .sra x1 j
  | true, true, true => .src x1 j

/-- Short relative jumps: condition in bits 6..7, P in bit 8 (R105). -/
def decodeShortJump (h : Half) : Instr :=
  let p := h.getLsbD 7
  let m7 := h.extractLsb' 0 7
  match h.getLsbD 9, h.getLsbD 8 with
  | false, false => .jru p m7
  | false, true => .jrn p m7
  | true, false => .jrg p m7
  | true, true => .jrl p m7

/-- Long jumps: selector in bits 6..9, secondary code in bits 10..13 (R106); the other patterns are unassigned (R124). -/
def decodeLongJump (w : Word32) : Except DecodeError Instr :=
  let sel := w.extractLsb' 22 4
  let m18 := w.extractLsb' 0 18
  match (w.extractLsb' 18 4).toNat with
  | 1 => if sel.getLsbD 0 then .error .unassignedLongJump else .ok (.js (w.extractLsb' 23 3) m18)
  | 2 => .ok (.jgf sel m18)
  | 4 => .ok (.jgs sel m18)
  | 6 => if w.extractLsb' 22 2 = 0#2 then .ok (.jgw (w.extractLsb' 24 2) m18) else .error .unassignedLongJump
  | 8 =>
    if sel = 0b0100#4 then .ok (.jan m18)
    else if sel = 0b1000#4 then .ok (.jag m18)
    else if sel = 0b1100#4 then .ok (.jal m18)
    else .error .unassignedLongJump
  | 12 => if sel = 0#4 then .ok (.jgu m18) else .error .unassignedLongJump
  | _ => .error .unassignedLongJump

/-- Short input and output: direction in bit 14 (R107); bit 13 is ignored (R125). -/
def decodeShortIo (h : Half) : Instr :=
  let c := h.getLsbD 9
  let dc := h.extractLsb' 3 6
  let k := h.getLsbD 0
  if h.getLsbD 1 then .dia c dc k else .doa c dc k

/-- Long input and output: I in bit 13, direction in bit 14 (R107). -/
def decodeLongIo (w : Word32) : Instr :=
  let c := w.getLsbD 25
  let dc := w.extractLsb' 19 6
  let i := w.getLsbD 18
  let k := w.getLsbD 16
  let m16 := w.extractLsb' 0 16
  if w.getLsbD 17 then .dim c dc i k m16 else .dom c dc i k m16

/-- The instruction in a halfword that is not the first half of a long one (R101, R120). X1 = 7 selects the return
to memory variant of the instructions that have one (R117, R123). -/
def decodeShort (h : Half) : Except DecodeError Instr :=
  let x1 := h.extractLsb' 7 3
  let m7 := h.extractLsb' 0 7
  match (h.extractLsb' 11 5).toNat with
  | 0 => decodeNonMemory h
  | 1 => .ok (decodeShift h)
  | 2 => .ok (.ldaS x1 m7)
  | 3 => .ok (.stxS x1 m7)
  | 4 => .ok (.icnS x1 m7)
  | 5 => .ok (if h.getLsbD 10 then .mmf x1 m7 else .mfm x1 m7)
  | 6 => .ok (.laeS x1 m7)
  | 7 => .ok (.staS x1 m7)
  | 8 => .ok (.sthS x1 m7)
  | 9 => .ok (decodeShortIo h)
  | 10 => .ok (.ldbS x1 m7)
  | 11 => .ok (.ldxS x1 m7)
  | 12 => .ok (decodeShortJump h)
  | 13 => .ok (.imnS x1 m7)
  | 14 => .ok (.rtaS x1 m7)
  | 15 => .ok (.stbS x1 m7)
  | 16 => .ok (if x1 = 7#3 then .andrS m7 else .andS x1 m7)
  | 17 => .ok (.samS x1 m7)
  | 18 => .ok (if x1 = 7#3 then .mlfrS m7 else .mlfS x1 m7)
  | 19 => .ok (if x1 = 7#3 then .afdrS m7 else .afdS x1 m7)
  | 20 => .ok (if x1 = 7#3 then .adurS m7 else .aduS x1 m7)
  | 21 => .ok (if x1 = 7#3 then .adlrS m7 else .adlS x1 m7)
  | 22 => .ok (if x1 = 7#3 then .dvfrS m7 else .dvfS x1 m7)
  | 23 => .ok (if x1 = 7#3 then .adfrS m7 else .adfS x1 m7)
  | 24 => .ok (if x1 = 7#3 then .lorrS m7 else .lorS x1 m7)
  | 25 => .ok (if x1 = 7#3 then .exorS m7 else .exoS x1 m7)
  | 26 => .ok (if x1 = 7#3 then .mulrS m7 else .mulS x1 m7)
  | 27 => .ok (if x1 = 7#3 then .sfdrS m7 else .sfdS x1 m7)
  | 28 => .ok (if x1 = 7#3 then .sburS m7 else .sbuS x1 m7)
  | 29 => .ok (if x1 = 7#3 then .sblrS m7 else .sblS x1 m7)
  | 30 => .ok (if x1 = 7#3 then .dvdrS m7 else .dvdS x1 m7)
  | _ => .ok (if x1 = 7#3 then .sbfrS m7 else .sbfS x1 m7)

/-- The instruction in a fullword whose first half the length rule calls long (R102, R120). Bit 15 is the operand
width designator H, or a part of the operation code (ICN/ICL, IMP/IMN, AFD/LDS, SFD/STS, ADF/STI, SBF/LDI). -/
def decodeLong (w : Word32) : Except DecodeError Instr :=
  let x1 := w.extractLsb' 23 3
  let x2 := w.extractLsb' 19 4
  let i := w.getLsbD 18
  let m := w.getLsbD 17
  let h := w.getLsbD 16
  let m16 := w.extractLsb' 0 16
  match (w.extractLsb' 27 5).toNat with
  | 0 => .error .shortGroup
  | 1 => .error .shortGroup
  | 2 => .ok (if h then .ldahL x1 x2 i m m16 else .ldaL x1 x2 i m m16)
  | 3 => .ok (.stxL x1 x2 i m h m16)
  | 4 => .ok (if h then .iclL x1 x2 i m m16 else .icnL x1 x2 i m m16)
  | 5 => .error .shortGroup
  | 6 => .ok (.laeL x1 x2 i m h m16)
  | 7 => .ok (if h then .stahL x1 x2 i m m16 else .staL x1 x2 i m m16)
  | 8 => .ok (.sthL x1 x2 i m h m16)
  | 9 => .ok (decodeLongIo w)
  | 10 => .ok (if h then .ldbhL x1 x2 i m m16 else .ldbL x1 x2 i m m16)
  | 11 => .ok (.ldxL x1 x2 i m h m16)
  | 12 => decodeLongJump w
  | 13 => .ok (if h then .imnL x1 x2 i m m16 else .impL x1 x2 i m m16)
  | 14 => .ok (.rtaL x1 x2 i m h m16)
  | 15 => .ok (if h then .stbhL x1 x2 i m m16 else .stbL x1 x2 i m m16)
  | 16 => .ok (if x1 = 7#3 then .andrL x2 i m h m16 else .andL x1 x2 i m h m16)
  | 17 => .ok (.samL x1 x2 i m h m16)
  | 18 => .ok (if x1 = 7#3 then .mlfrL x2 i m h m16 else .mlfL x1 x2 i m h m16)
  | 19 => .ok (if h then .ldsL x1 x2 i m m16 else if x1 = 7#3 then .afdrL x2 i m m16 else .afdL x1 x2 i m m16)
  | 20 => .ok (if x1 = 7#3 then (if h then .aduhrL x2 i m m16 else .adurL x2 i m m16) else (if h then .aduhL x1 x2 i m m16 else .aduL x1 x2 i m m16))
  | 21 => .ok (if x1 = 7#3 then (if h then .adlhrL x2 i m m16 else .adlrL x2 i m m16) else (if h then .adlhL x1 x2 i m m16 else .adlL x1 x2 i m m16))
  | 22 => .ok (if x1 = 7#3 then .dvfrL x2 i m h m16 else .dvfL x1 x2 i m h m16)
  | 23 => .ok (if h then .stiL x1 x2 i m m16 else if x1 = 7#3 then .adfrL x2 i m m16 else .adfL x1 x2 i m m16)
  | 24 => .ok (if x1 = 7#3 then .lorrL x2 i m h m16 else .lorL x1 x2 i m h m16)
  | 25 => .ok (if x1 = 7#3 then .exorL x2 i m h m16 else .exoL x1 x2 i m h m16)
  | 26 => .ok (if x1 = 7#3 then (if h then .mulhrL x2 i m m16 else .mulrL x2 i m m16) else (if h then .mulhL x1 x2 i m m16 else .mulL x1 x2 i m m16))
  | 27 => .ok (if h then .stsL x1 x2 i m m16 else if x1 = 7#3 then .sfdrL x2 i m m16 else .sfdL x1 x2 i m m16)
  | 28 => .ok (if x1 = 7#3 then (if h then .sbuhrL x2 i m m16 else .sburL x2 i m m16) else (if h then .sbuhL x1 x2 i m m16 else .sbuL x1 x2 i m m16))
  | 29 => .ok (if x1 = 7#3 then (if h then .sblhrL x2 i m m16 else .sblrL x2 i m m16) else (if h then .sblhL x1 x2 i m m16 else .sblL x1 x2 i m m16))
  | 30 => .ok (if x1 = 7#3 then (if h then .dvdhrL x2 i m m16 else .dvdrL x2 i m m16) else (if h then .dvdhL x1 x2 i m m16 else .dvdL x1 x2 i m m16))
  | _ => .ok (if h then .ldiL x1 x2 i m m16 else if x1 = 7#3 then .sbfrL x2 i m m16 else .sbfL x1 x2 i m m16)

/-- The instruction at the head of a sequence of bytes, and the bytes after it. -/
def decode : List Byte → Except DecodeError (Instr × List Byte)
  | b0 :: b1 :: rest =>
    let h : Half := b0 ++ b1
    if isLong h then
      match rest with
      | b2 :: b3 :: rest' => (decodeLong (h ++ (b2 ++ b3 : Half))).map (fun i => (i, rest'))
      | _ => .error .truncated
    else (decodeShort h).map (fun i => (i, rest))
  | _ => .error .truncated

/-- The word of a short or of a long instruction. -/
inductive Code where
  | short (h : Half)
  | long (w : Word32)
deriving DecidableEq, Repr

/-- A halfword as two bytes, the more significant first (log 5). -/
def halfBytes (h : Half) : List Byte := [h.extractLsb' 8 8, h.extractLsb' 0 8]

/-- The bytes of an instruction's word in the order memory holds them (20_memory.md R63). -/
def Code.bytes : Code → List Byte
  | .short h => halfBytes h
  | .long w => halfBytes (w.extractLsb' 16 16) ++ halfBytes (w.extractLsb' 0 16)

/-- The short memory reference format (R101). -/
def encodeShortMem (op : BitVec 5) (x1 : BitVec 3) (m7 : BitVec 7) : Code :=
  .short (op ++ 0#1 ++ x1 ++ m7)

/-- The long memory reference format (R102). -/
def encodeLongMem (op : BitVec 5) (x1 : BitVec 3) (x2 : BitVec 4) (i m h : Bool) (m16 : BitVec 16) : Code :=
  .long (op ++ 1#1 ++ x1 ++ x2 ++ BitVec.ofBool i ++ BitVec.ofBool m ++ BitVec.ofBool h ++ m16)

/-- The non-memory reference format, unused bits zero (R104, R401). -/
def encodeNonMemory (sec f : BitVec 4) : Code :=
  .short (0#5 ++ sec ++ 0#3 ++ f)

/-- The shift format; the secondary code is bits 5, 9 and 10 (R103). -/
def encodeShift (s0 s1 s2 : Bool) (x1 : BitVec 3) (j : BitVec 5) : Code :=
  .short (1#5 ++ BitVec.ofBool s0 ++ x1 ++ BitVec.ofBool s1 ++ BitVec.ofBool s2 ++ j)

/-- The block transfer format (R108). -/
def encodeBlock (sec : Bool) (x1 : BitVec 3) (j : BitVec 7) : Code :=
  .short (5#5 ++ BitVec.ofBool sec ++ x1 ++ j)

/-- The short jump format (R105). -/
def encodeShortJump (cond : BitVec 2) (p : Bool) (m7 : BitVec 7) : Code :=
  .short (12#5 ++ 0#1 ++ cond ++ BitVec.ofBool p ++ m7)

/-- The long jump format (R106). -/
def encodeLongJump (sel sec : BitVec 4) (m18 : BitVec 18) : Code :=
  .long (12#5 ++ 1#1 ++ sel ++ sec ++ m18)

/-- The short input/output format, the unused bit 13 zero (R107). -/
def encodeShortIo (d c : Bool) (dc : BitVec 6) (k : Bool) : Code :=
  .short (9#5 ++ 0#1 ++ BitVec.ofBool c ++ dc ++ 0#1 ++ BitVec.ofBool d ++ BitVec.ofBool k)

/-- The long input/output format (R107). -/
def encodeLongIo (d c : Bool) (dc : BitVec 6) (i k : Bool) (m16 : BitVec 16) : Code :=
  .long (9#5 ++ 1#1 ++ BitVec.ofBool c ++ dc ++ BitVec.ofBool i ++ BitVec.ofBool d ++ BitVec.ofBool k ++ m16)

/-- The word of an instruction (R101 to R108). -/
def encode : Instr → Code
  | .emi => encodeNonMemory 1 0
  | .dpi => encodeNonMemory 2 0
  | .dmi => encodeNonMemory 3 0
  | .epi => encodeNonMemory 4 0
  | .hlt => encodeNonMemory 5 0
  | .setf f => encodeNonMemory 6 f
  | .rstf f => encodeNonMemory 7 f
  | .cfx => encodeNonMemory 8 0
  | .cxf => encodeNonMemory 9 0
  | .eab => encodeNonMemory 10 0
  | .shm => encodeNonMemory 11 0
  | .rhm => encodeNonMemory 12 0
  | .lxa f => encodeNonMemory 13 f
  | .nop => encodeNonMemory 14 0
  | .slld x1 j => encodeShift false false false x1 j
  | .slcd x1 j => encodeShift false false true x1 j
  | .sll x1 j => encodeShift false true false x1 j
  | .srld x1 j => encodeShift false true true x1 j
  | .srad x1 j => encodeShift true false false x1 j
  | .srcd x1 j => encodeShift true false true x1 j
  | .sra x1 j => encodeShift true true false x1 j
  | .src x1 j => encodeShift true true true x1 j
  | .mfm x1 j => encodeBlock false x1 j
  | .mmf x1 j => encodeBlock true x1 j
  | .jru p m7 => encodeShortJump 0 p m7
  | .jrn p m7 => encodeShortJump 1 p m7
  | .jrg p m7 => encodeShortJump 2 p m7
  | .jrl p m7 => encodeShortJump 3 p m7
  | .js x1 m18 => encodeLongJump (x1 ++ 0#1) 1 m18
  | .jgf f m18 => encodeLongJump f 2 m18
  | .jgs n m18 => encodeLongJump n 4 m18
  | .jgw sw m18 => encodeLongJump (sw ++ 0#2) 6 m18
  | .jgu m18 => encodeLongJump 0 12 m18
  | .jan m18 => encodeLongJump 4 8 m18
  | .jag m18 => encodeLongJump 8 8 m18
  | .jal m18 => encodeLongJump 12 8 m18
  | .doa c dc k => encodeShortIo false c dc k
  | .dia c dc k => encodeShortIo true c dc k
  | .dom c dc i k m16 => encodeLongIo false c dc i k m16
  | .dim c dc i k m16 => encodeLongIo true c dc i k m16
  | .ldaS x1 m7 => encodeShortMem 2 x1 m7
  | .ldaL x1 x2 i m m16 => encodeLongMem 2 x1 x2 i m false m16
  | .ldahL x1 x2 i m m16 => encodeLongMem 2 x1 x2 i m true m16
  | .ldbS x1 m7 => encodeShortMem 10 x1 m7
  | .ldbL x1 x2 i m m16 => encodeLongMem 10 x1 x2 i m false m16
  | .ldbhL x1 x2 i m m16 => encodeLongMem 10 x1 x2 i m true m16
  | .staS x1 m7 => encodeShortMem 7 x1 m7
  | .staL x1 x2 i m m16 => encodeLongMem 7 x1 x2 i m false m16
  | .stahL x1 x2 i m m16 => encodeLongMem 7 x1 x2 i m true m16
  | .stbS x1 m7 => encodeShortMem 15 x1 m7
  | .stbL x1 x2 i m m16 => encodeLongMem 15 x1 x2 i m false m16
  | .stbhL x1 x2 i m m16 => encodeLongMem 15 x1 x2 i m true m16
  | .stxS x1 m7 => encodeShortMem 3 x1 m7
  | .stxL x1 x2 i m h m16 => encodeLongMem 3 x1 x2 i m h m16
  | .ldxS x1 m7 => encodeShortMem 11 x1 m7
  | .ldxL x1 x2 i m h m16 => encodeLongMem 11 x1 x2 i m h m16
  | .laeS x1 m7 => encodeShortMem 6 x1 m7
  | .laeL x1 x2 i m h m16 => encodeLongMem 6 x1 x2 i m h m16
  | .sthS x1 m7 => encodeShortMem 8 x1 m7
  | .sthL x1 x2 i m h m16 => encodeLongMem 8 x1 x2 i m h m16
  | .rtaS x1 m7 => encodeShortMem 14 x1 m7
  | .rtaL x1 x2 i m h m16 => encodeLongMem 14 x1 x2 i m h m16
  | .samS x1 m7 => encodeShortMem 17 x1 m7
  | .samL x1 x2 i m h m16 => encodeLongMem 17 x1 x2 i m h m16
  | .icnS x1 m7 => encodeShortMem 4 x1 m7
  | .icnL x1 x2 i m m16 => encodeLongMem 4 x1 x2 i m false m16
  | .iclL x1 x2 i m m16 => encodeLongMem 4 x1 x2 i m true m16
  | .imnS x1 m7 => encodeShortMem 13 x1 m7
  | .imnL x1 x2 i m m16 => encodeLongMem 13 x1 x2 i m true m16
  | .impL x1 x2 i m m16 => encodeLongMem 13 x1 x2 i m false m16
  | .ldsL x1 x2 i m m16 => encodeLongMem 19 x1 x2 i m true m16
  | .stsL x1 x2 i m m16 => encodeLongMem 27 x1 x2 i m true m16
  | .stiL x1 x2 i m m16 => encodeLongMem 23 x1 x2 i m true m16
  | .ldiL x1 x2 i m m16 => encodeLongMem 31 x1 x2 i m true m16
  | .aduS x1 m7 => encodeShortMem 20 x1 m7
  | .aduL x1 x2 i m m16 => encodeLongMem 20 x1 x2 i m false m16
  | .aduhL x1 x2 i m m16 => encodeLongMem 20 x1 x2 i m true m16
  | .adurS m7 => encodeShortMem 20 7 m7
  | .adurL x2 i m m16 => encodeLongMem 20 7 x2 i m false m16
  | .aduhrL x2 i m m16 => encodeLongMem 20 7 x2 i m true m16
  | .adlS x1 m7 => encodeShortMem 21 x1 m7
  | .adlL x1 x2 i m m16 => encodeLongMem 21 x1 x2 i m false m16
  | .adlhL x1 x2 i m m16 => encodeLongMem 21 x1 x2 i m true m16
  | .adlrS m7 => encodeShortMem 21 7 m7
  | .adlrL x2 i m m16 => encodeLongMem 21 7 x2 i m false m16
  | .adlhrL x2 i m m16 => encodeLongMem 21 7 x2 i m true m16
  | .sbuS x1 m7 => encodeShortMem 28 x1 m7
  | .sbuL x1 x2 i m m16 => encodeLongMem 28 x1 x2 i m false m16
  | .sbuhL x1 x2 i m m16 => encodeLongMem 28 x1 x2 i m true m16
  | .sburS m7 => encodeShortMem 28 7 m7
  | .sburL x2 i m m16 => encodeLongMem 28 7 x2 i m false m16
  | .sbuhrL x2 i m m16 => encodeLongMem 28 7 x2 i m true m16
  | .sblS x1 m7 => encodeShortMem 29 x1 m7
  | .sblL x1 x2 i m m16 => encodeLongMem 29 x1 x2 i m false m16
  | .sblhL x1 x2 i m m16 => encodeLongMem 29 x1 x2 i m true m16
  | .sblrS m7 => encodeShortMem 29 7 m7
  | .sblrL x2 i m m16 => encodeLongMem 29 7 x2 i m false m16
  | .sblhrL x2 i m m16 => encodeLongMem 29 7 x2 i m true m16
  | .mulS x1 m7 => encodeShortMem 26 x1 m7
  | .mulL x1 x2 i m m16 => encodeLongMem 26 x1 x2 i m false m16
  | .mulhL x1 x2 i m m16 => encodeLongMem 26 x1 x2 i m true m16
  | .mulrS m7 => encodeShortMem 26 7 m7
  | .mulrL x2 i m m16 => encodeLongMem 26 7 x2 i m false m16
  | .mulhrL x2 i m m16 => encodeLongMem 26 7 x2 i m true m16
  | .dvdS x1 m7 => encodeShortMem 30 x1 m7
  | .dvdL x1 x2 i m m16 => encodeLongMem 30 x1 x2 i m false m16
  | .dvdhL x1 x2 i m m16 => encodeLongMem 30 x1 x2 i m true m16
  | .dvdrS m7 => encodeShortMem 30 7 m7
  | .dvdrL x2 i m m16 => encodeLongMem 30 7 x2 i m false m16
  | .dvdhrL x2 i m m16 => encodeLongMem 30 7 x2 i m true m16
  | .adfS x1 m7 => encodeShortMem 23 x1 m7
  | .adfL x1 x2 i m m16 => encodeLongMem 23 x1 x2 i m false m16
  | .adfrS m7 => encodeShortMem 23 7 m7
  | .adfrL x2 i m m16 => encodeLongMem 23 7 x2 i m false m16
  | .sbfS x1 m7 => encodeShortMem 31 x1 m7
  | .sbfL x1 x2 i m m16 => encodeLongMem 31 x1 x2 i m false m16
  | .sbfrS m7 => encodeShortMem 31 7 m7
  | .sbfrL x2 i m m16 => encodeLongMem 31 7 x2 i m false m16
  | .mlfS x1 m7 => encodeShortMem 18 x1 m7
  | .mlfL x1 x2 i m h m16 => encodeLongMem 18 x1 x2 i m h m16
  | .mlfrS m7 => encodeShortMem 18 7 m7
  | .mlfrL x2 i m h m16 => encodeLongMem 18 7 x2 i m h m16
  | .dvfS x1 m7 => encodeShortMem 22 x1 m7
  | .dvfL x1 x2 i m h m16 => encodeLongMem 22 x1 x2 i m h m16
  | .dvfrS m7 => encodeShortMem 22 7 m7
  | .dvfrL x2 i m h m16 => encodeLongMem 22 7 x2 i m h m16
  | .afdS x1 m7 => encodeShortMem 19 x1 m7
  | .afdL x1 x2 i m m16 => encodeLongMem 19 x1 x2 i m false m16
  | .afdrS m7 => encodeShortMem 19 7 m7
  | .afdrL x2 i m m16 => encodeLongMem 19 7 x2 i m false m16
  | .sfdS x1 m7 => encodeShortMem 27 x1 m7
  | .sfdL x1 x2 i m m16 => encodeLongMem 27 x1 x2 i m false m16
  | .sfdrS m7 => encodeShortMem 27 7 m7
  | .sfdrL x2 i m m16 => encodeLongMem 27 7 x2 i m false m16
  | .andS x1 m7 => encodeShortMem 16 x1 m7
  | .andL x1 x2 i m h m16 => encodeLongMem 16 x1 x2 i m h m16
  | .andrS m7 => encodeShortMem 16 7 m7
  | .andrL x2 i m h m16 => encodeLongMem 16 7 x2 i m h m16
  | .lorS x1 m7 => encodeShortMem 24 x1 m7
  | .lorL x1 x2 i m h m16 => encodeLongMem 24 x1 x2 i m h m16
  | .lorrS m7 => encodeShortMem 24 7 m7
  | .lorrL x2 i m h m16 => encodeLongMem 24 7 x2 i m h m16
  | .exoS x1 m7 => encodeShortMem 25 x1 m7
  | .exoL x1 x2 i m h m16 => encodeLongMem 25 x1 x2 i m h m16
  | .exorS m7 => encodeShortMem 25 7 m7
  | .exorL x2 i m h m16 => encodeLongMem 25 7 x2 i m h m16
  | .ptr x1 x2 i m m16 => encodeLongMem 16 x1 x2 i m false m16

/-- The bytes of a table word: `nbits` is 16 or 32 and bit 0 of `w` is the least significant bit of the row's word, as
spec/opcode_table.json numbers it (R123). A 16 bit word is followed by zeros. -/
def tableWordBytes (nbits w : Nat) : List Byte :=
  if nbits ≤ 16 then halfBytes (BitVec.ofNat 16 w) ++ halfBytes 0#16
  else halfBytes (BitVec.ofNat 16 (w / 65536)) ++ halfBytes (BitVec.ofNat 16 w)

/-- The instruction the decoder reads from a table word, none where it refuses. -/
def decodeTableWord (nbits w : Nat) : Option Instr :=
  match decode (tableWordBytes nbits w) with
  | .ok (i, _) => some i
  | .error _ => none

end Sys2Proof
end

