-- ==== Sys2Proof/Machine/Fetch.lean ====
section
/-! DEFINITION. Instruction fetch (30_encoding.md R100, R128; 20_memory.md R82). -/

namespace Sys2Proof.Machine

/-- The contents that may run as the halfword at pc. Where IR holds it and the CPU has stored into it since, a short
instruction having stored into its own word, they are what IR holds, what stood there before each store, and what stands
there now (20_memory.md R82, D28; log 14); else it is what stands there now. -/
def State.runnable (s : State) : List Half :=
  let now := s.mem.half s.pc
  match s.irHeld with
  | some h => if h.addr = s.pc ∧ h.past ≠ [] then s.ir.extractLsb' 0 16 :: h.past ++ [now] else [now]
  | none => [now]

/-- The halfword at pc: where several contents that differ may run, a free value decides (R82, log 14). -/
def State.nextHalf (s : State) : Half × State :=
  let now := s.mem.half s.pc
  let l := s.runnable
  if l.all (· == now) then (now, s) else (l.getD (s.drawWord.toNat % l.length) now, s.drawn)

/-- The fullword that IR receives with a short instruction: at an even address the next halfword comes with it
(10_state.md R24, log 14). -/
def State.fetchShort (s : State) (h : Half) : State :=
  if isOdd s.pc then s.setIr (s.mem.half (s.pc - 1) ++ h) none
  else s.setIr (h ++ s.mem.half (s.pc + 1)) (some ⟨s.pc + 1, []⟩)

/-- The instruction that some bytes hold; an unassigned operation code has no meaning (R124). -/
def decodeFetched (bytes : List Byte) (s : State) : Except Fault (Instr × State) :=
  match decode bytes with
  | .ok (i, _) => .ok (i, s)
  | .error _ => .error .unassignedOpcode

/-- Fetch the instruction at pc, in one access: a long one must stand at an even address (R128). -/
def State.fetchNow (s : State) : Except Fault (Instr × State) := do
  let _ ← s.read16 s.pc
  let (h, s1) := s.nextHalf
  if isLong h then
    if isOdd s.pc then .error .misaligned
    else do
      let lo ← s.read16 (s.pc + 1)
      decodeFetched (halfBytes h ++ halfBytes lo) (s1.setIr (h ++ lo) none)
  else decodeFetched (halfBytes h) (s1.fetchShort h)

/-- Instruction fetch, after the I/O unit's turn (20_memory.md R68, R80). -/
def State.fetch (s : State) : Except Fault (Instr × State) := s.ioTurn.fetchNow

/-- The memory that holds a table word as the instruction at an address, the halfword after a short one zero (log 28). -/
def Memory.placeWord (m : Memory) (a : Addr) (nbits w : Nat) : Memory :=
  if nbits ≤ 16 then (m.putHalf a (BitVec.ofNat 16 w)).putHalf (a + 1) 0#16
  else (m.putHalf a (BitVec.ofNat 16 (w / 65536))).putHalf (a + 1) (BitVec.ofNat 16 w)

end Sys2Proof.Machine
end

