-- ==== Sys2Proof/Machine/Step.lean ====
section
/-! DEFINITION. One step of the machine (30_encoding.md R128). -/

namespace Sys2Proof.Machine

/-- Fetch and execute one instruction, then conclude; a halted machine only concludes (47_nonmem.md R407;
60_exceptions.md R468, R477; log 29). -/
def step (s : State) : StepOutcome :=
  if s.halted then finish s.conclude
  else
    match s.fetch with
    | .error f => .fault f
    | .ok (i, s1) =>
      match exec i s1 with
      | .next s2 => finish s2.conclude
      | .fault f => .fault f
      | .refused r => .refused r

/-- The state whose next step fetches and runs the instruction of a table word: the word lies at pc, IR holds nothing
else, the I/O unit is not about to write, the machine is not halted (log 28). -/
def State.withFetchWord (s : State) (nbits w : Nat) : State :=
  ((((s.setMem (s.mem.placeWord s.pc nbits w)).setIr s.ir none).setIoDeferred []).setSteals []).setHalted false

end Sys2Proof.Machine
end

