-- ==== Sys2Proof/Safety.lean ====
section
/-! DEFINITION. What a safe run is, and the words the claims are written in: where an access is allowed, what a store
leaves, the invariant of the machine, and the real numbers that words stand for. -/

namespace Sys2Proof.Machine

/-- A step that neither faults nor is refused. -/
def State.Runs (s : State) : Prop := ∃ t, step s = .next t

/-! ### Accesses -/

/-- A fullword may be read at an address (20_memory.md R66). -/
def State.readable32 (s : State) (a : Addr) : Bool := !isOdd a && s.isPresent a && s.isPresent (a + 1)

/-- A halfword may be written at an address (20_memory.md R67). -/
def State.writable16 (s : State) (a : Addr) : Bool := s.isPresent a && !s.isProtected a

/-- A fullword may be written at an address (20_memory.md R67). -/
def State.writable32 (s : State) (a : Addr) : Bool := !isOdd a && s.writable16 a && s.writable16 (a + 1)

/-- The operand cell may be written: a halfword or a fullword. -/
def State.writable (s : State) (r : Ref) : Bool := if r.half then s.writable16 r.addr else s.writable32 r.addr

/-- The fullword at an even address, its left half at the lower address (20_memory.md R63). -/
def Memory.word (m : Memory) (a : Addr) : Word32 := m.half a ++ m.half (a + 1)

/-- Every byte reads the same in both memories but for the `n` bytes from cell `lo` on. -/
def sameOutside (m m' : Memory) (lo n : Nat) : Prop := ∀ k, k < lo ∨ lo + n ≤ k → m'.byte k = m.byte k

/-- `m'` is `m` with a fullword stored at an address and no other byte changed. -/
def storedWord (m m' : Memory) (a : Addr) (w : Word32) : Prop :=
  m'.word a = w ∧ sameOutside m m' (2 * a.toNat) 4

/-- `m'` is `m` with a halfword stored at an address and no other byte changed. -/
def storedHalf (m m' : Memory) (a : Addr) (h : Half) : Prop :=
  m'.half a = h ∧ sameOutside m m' (2 * a.toNat) 2

/-- A register stored at an operand cell: its left half, or all of it (20_memory.md R86). -/
def stored (m m' : Memory) (r : Ref) (w : Word32) : Prop :=
  if r.half then storedHalf m m' r.addr (w.extractLsb' 16 16) else storedWord m m' r.addr w

/-- What return to memory leaves: the result in the operand's cell if that lies in the Fast Scratchpad, else nothing
(41_fixed_arith.md R202). -/
def State.returned (s : State) (m' : Memory) (r : Ref) (w : Word32) : Prop :=
  if s.inFast r.addr then stored s.mem m' r w else m' = s.mem

/-- The operand's cell may be written where return to memory writes it. -/
def State.returnable (s : State) (r : Ref) : Bool := !s.inFast r.addr || s.writable r

/-- The state that return to memory goes on in: where it stores, that of a store (20_memory.md R68, R82). -/
def State.returnTurn (s : State) (r : Ref) : State := if s.inFast r.addr then s.storeTurn r.half r.addr else s

/-! ### The I/O unit -/

/-- What the I/O unit may still write: what waits, then what it will ask for (20_memory.md R80). -/
def State.ioWrites (s : State) : List IoWrite := s.ioDeferred ++ s.steals.flatten

/-- `t` is `s` after turns of the I/O unit and nothing else (20_memory.md R68, R80; 92_eei_decisions.md D27). -/
structure State.Turned (s t : State) : Prop where
  /-- Only memory, the I/O unit's requests and the second instruction in IR differ. -/
  frame : t = { s with mem := t.mem, irHeld := t.irHeld, ioDeferred := t.ioDeferred, steals := t.steals }
  /-- The oldest requests are made, in order, none while SR14 = 0; the rest still stand. -/
  order : ∃ ws, s.ioWrites = ws ++ t.ioWrites ∧ (s.srBit 14 = false → ws = []) ∧
    t.mem = (ws.foldl State.ioWrite s).mem ∧ t.irHeld = (ws.foldl State.ioWrite s).irHeld
  /-- A byte outside the words of the requests keeps its value. -/
  outside : ∀ k, (∀ w ∈ s.ioWrites, k < 2 * w.addr.toNat ∨ 2 * w.addr.toNat + 4 ≤ k) → t.mem.byte k = s.mem.byte k
  /-- An absent halfword keeps its value (R73). -/
  absent : ∀ a, s.isPresent a = false → t.mem.half a = s.mem.half a
  /-- IR holds the same halfword, and forgets nothing of what may run there. -/
  held : ∃ l, t.irHeld = s.irHeld.map fun h => { h with past := h.past ++ l }
  /-- Where the CPU has not stored into that halfword, nothing is noted (R82). -/
  unstored : (∀ h, s.irHeld = some h → h.past = []) → t.irHeld = s.irHeld

/-! ### The second instruction in IR -/

/-- No content but the one in memory may run as the halfword at pc: IR does not hold it, or the CPU has not stored into
it, or all it held is the same (20_memory.md R82). -/
def State.settled (s : State) : Prop :=
  ∀ h, s.irHeld = some h → h.addr = s.pc → h.past = [] ∨
    ∀ x ∈ s.ir.extractLsb' 0 16 :: h.past, x = s.mem.half s.pc

/-! ### The invariant -/

/-- Every listed cell belongs to a halfword that is present (20_memory.md R73). -/
def Memory.within (rs : List AddrRange) (m : Memory) : Bool :=
  m.all fun c => decide (c.1 < 2 ^ 19) && inRanges rs (BitVec.ofNat 18 (c.1 / 2))

/-- What every reachable state has. -/
structure State.Inv (s : State) : Prop where
  /-- Memory is in canonical form. -/
  canonical : s.mem.wf = true
  /-- Only present memory holds anything (20_memory.md R73). -/
  placed : s.mem.within s.cfg.present = true
  /-- A pending request is of a level that is allowed: the others are ignored or cleared (60_exceptions.md R466). -/
  latched : s.pending &&& ~~~s.allowed = 0#16
  /-- The hold-off never exceeds INT_HOLDOFF (60_exceptions.md R472). -/
  counted : s.holdoff ≤ s.cfg.intHoldoff
  /-- IR's second instruction is the right half of a word (20_memory.md R82). -/
  heldOdd : ∀ h, s.irHeld = some h → isOdd h.addr = true

/-! ### Indirect chains -/

/-- The pointer words read one after the other from an address on are `vs`, each with I = 1 and M = 0, and no H where H
is a halfword designator; the last names the address `e`, and `t` is the state after it (30_encoding.md R114). -/
def State.leads (desig : Bool) : State → Addr → List Word32 → Addr → State → Prop
  | s, ea, [], e, t => e = ea ∧ t = s
  | s, ea, v :: vs, e, t => v.getLsbD 18 = true ∧ v.getLsbD 17 = false ∧ (desig && v.getLsbD 16) = false ∧
      ∃ s1, s.load32 ea = .ok (v, s1) ∧ State.leads desig s1 (s.pointerAddr v) vs e t

/-- The pointer words an indirect chain reads from an address on are `vs` and then `w`, which has I = 0, and `t` is the
state after it (30_encoding.md R114). -/
def State.pointers (desig : Bool) (s : State) (ea : Addr) (vs : List Word32) (w : Word32) (t : State) : Prop :=
  ∃ e u, s.leads desig ea vs e u ∧ u.load32 e = .ok (w, t) ∧ w.getLsbD 18 = false

/-! ### Block transfers -/

/-- `n` words of a block transfer move, one at a time in ascending order, the first at the core address c + 2 and the
fast address f + 2, and `t` is the state after them (49_block.md R452, R453, R454). -/
def State.moves (toFast : Bool) : State → Addr → Addr → Nat → State → Prop
  | s, _, _, 0, t => t = s
  | s, c, f, n + 1, t => s.inFast (f + 2) = true ∧ ∃ w s1 s2,
      s.load32 (if toFast then c + 2 else f + 2) = .ok (w, s1) ∧
      s1.store32 (if toFast then f + 2 else c + 2) (w &&& s.regA) = .ok s2 ∧ State.moves toFast s2 (c + 2) (f + 2) n t

/-! ### Double precision pairs -/

/-- The forms of ADL and ADLH (41_fixed_arith.md R207, R208). -/
def isAdl : Instr → Bool
  | .adlS _ _ | .adlL _ _ _ _ _ | .adlhL _ _ _ _ _ => true
  | _ => false

/-- The forms of ADU and ADUH (R203, R204). -/
def isAdu : Instr → Bool
  | .aduS _ _ | .aduL _ _ _ _ _ | .aduhL _ _ _ _ _ => true
  | _ => false

/-- The forms of SBL and SBLH (R215, R216). -/
def isSbl : Instr → Bool
  | .sblS _ _ | .sblL _ _ _ _ _ | .sblhL _ _ _ _ _ => true
  | _ => false

/-- The forms of SBU and SBUH (R211, R212). -/
def isSbu : Instr → Bool
  | .sbuS _ _ | .sbuL _ _ _ _ _ | .sbuhL _ _ _ _ _ => true
  | _ => false

/-- `v` is the operand an add or subtract instruction reads (30_encoding.md R111, R112, R114, R116). -/
def State.readsOperand (s : State) (i : Instr) (v : Word32) : Prop :=
  match i with
  | .adlS x1 m7 | .aduS x1 m7 | .sblS x1 m7 | .sbuS x1 m7 => ∃ u, s.operand (s.shortRef x1 m7) = .ok (v, u)
  | .adlL x1 x2 i m m16 | .aduL x1 x2 i m m16 | .sblL x1 x2 i m m16 | .sbuL x1 x2 i m m16 =>
    ∃ r t u, s.longRef true (s.longIndex x1 x2) i m false m16 = .ok (r, t) ∧ t.operand r = .ok (v, u)
  | .adlhL x1 x2 i m m16 | .aduhL x1 x2 i m m16 | .sblhL x1 x2 i m m16 | .sbuhL x1 x2 i m m16 =>
    ∃ r t u, s.longRef true (s.longIndex x1 x2) i m true m16 = .ok (r, t) ∧ t.operand r = .ok (v, u)
  | _ => False

/-! ### Whole-machine words -/

/-- A step's end: a next state is concluded, a fault or a refusal stands (30_encoding.md R128). -/
def concluded : StepOutcome → StepOutcome
  | .next t => finish t.conclude
  | o => o

/-- The status bits an instruction may write (10_state.md R31). -/
def statusWritten : Instr → List Nat
  | .emi | .dmi => [14]
  | .dpi | .epi => [15]
  | .setf _ | .rstf _ => [8, 9, 10, 11]
  | .shm | .rhm => [5]
  | .ldsL _ _ _ _ _ => [0, 1, 2, 3, 4, 5, 6, 7, 8, 9, 10, 11, 12, 13, 14, 15]
  | .aduS _ _ | .aduL _ _ _ _ _ | .aduhL _ _ _ _ _ | .adurS _ | .adurL _ _ _ _ | .aduhrL _ _ _ _
  | .adlS _ _ | .adlL _ _ _ _ _ | .adlhL _ _ _ _ _ | .adlrS _ | .adlrL _ _ _ _ | .adlhrL _ _ _ _
  | .sbuS _ _ | .sbuL _ _ _ _ _ | .sbuhL _ _ _ _ _ | .sburS _ | .sburL _ _ _ _ | .sbuhrL _ _ _ _
  | .sblS _ _ | .sblL _ _ _ _ _ | .sblhL _ _ _ _ _ | .sblrS _ | .sblrL _ _ _ _ | .sblhrL _ _ _ _ => [12, 13]
  | _ => []

/-- The index register an instruction may write (10_state.md R30). -/
def indexWritten : Instr → Option (BitVec 4)
  | .ldxS x1 _ | .imnS x1 _ => some (x1.zeroExtend 4)
  | .ldxL _ x2 _ _ _ _ | .imnL _ x2 _ _ _ | .impL _ x2 _ _ _ => some x2
  | .lxa f => some f
  | .mmf _ _ | .mfm _ _ => some 0#4
  | _ => none

/-- The instructions that address a device (48_io.md R430). -/
def isInputOutput : Instr → Bool
  | .doa _ _ _ | .dia _ _ _ | .dom _ _ _ _ _ | .dim _ _ _ _ _ => true
  | _ => false

/-- A level may be entered: pending, allowed, and neither it nor a higher level in service (60_exceptions.md R468). -/
def State.eligible (s : State) (l : Nat) : Prop :=
  l < 16 ∧ s.pending.getLsbD l = true ∧ (if s.cfg.mrOneAllows then s.mr.getLsbD l else !s.mr.getLsbD l) = true ∧
    ∀ k, l ≤ k → k < 16 → s.inService.getLsbD k = false

/-- A whole neighbour of the quotient n / d, the quotient itself where that is whole (41_fixed_arith.md R223). -/
def quotientOf (n d q : Int) : Prop := |n - q * d| < |d| ∧ (d ∣ n → n = q * d)

/-- SR with the carry or borrow `c` recorded: SR12 ← c, SR13 ← 1 (10_state.md R34). -/
def recorded (sr : BitVec 16) (c : Bool) : BitVec 16 := (sr &&& 0xCFFF#16) ||| (if c then 0x3000#16 else 0x2000#16)

/-- SR with SR12 and SR13 cleared (10_state.md R34). -/
def cleared (sr : BitVec 16) : BitVec 16 := sr &&& 0xCFFF#16

/-- The carry into ADU and SBU (10_state.md R34). -/
def State.carryIn (s : State) : Word32 := if s.srBit 12 && s.srBit 13 then 1#32 else 0#32

/-- pending after an instruction that names a device code (60_exceptions.md R483). -/
def State.pendingAfter (s : State) (dc : BitVec 6) : BitVec 16 :=
  if dc = 16#6 ∨ dc = 17#6 then s.pending &&& 0xBFFF#16 else s.pending

/-! ### Real numbers -/

/-- The rational number a dyadic stands for. -/
def Dyadic.toRat (x : Dyadic) : ℚ := x.mant * (2 : ℚ) ^ x.exp

/-- FVal32 (20_memory.md R88). -/
def fval32 (w : Word32) : ℚ := (mant32 w : ℚ) * (2 : ℚ) ^ (((exp32 w).toNat : Int) - 128 - 23)

/-- FVal64 (20_memory.md R90). -/
def fval64 (d : BitVec 64) : ℚ := (mant64 d : ℚ) * (2 : ℚ) ^ (((exp64 d).toNat : Int) - 128 - 47)

/-- A value lies between two normalized numbers of one sign: rounding it neither overflows nor underflows
(42_float.md R275). -/
def inRange32 (x : ℚ) : Prop :=
  ∃ u v : Word32, normalized32 u = true ∧ normalized32 v = true ∧ fval32 u ≤ x ∧ x ≤ fval32 v ∧
    (0 < fval32 u ∨ fval32 v < 0)

/-- Rounds_32 (42_float.md R262): zero gives the floating zero; a value in range gives a normalized neighbour, that is,
no normalized number lies between the value and the result, or on the value if the result does not. -/
def rounds32 (zero : Word32) (x : ℚ) (w : Word32) : Prop :=
  (x = 0 → w = zero) ∧
    (inRange32 x → normalized32 w = true ∧ ∀ v : Word32, normalized32 v = true →
      ¬(x ≤ fval32 v ∧ fval32 v < fval32 w) ∧ ¬(fval32 w < fval32 v ∧ fval32 v ≤ x))

/-- As `inRange32`, for double precision. -/
def inRange64 (x : ℚ) : Prop :=
  ∃ u v : BitVec 64, normalized64 u = true ∧ normalized64 v = true ∧ fval64 u ≤ x ∧ x ≤ fval64 v ∧
    (0 < fval64 u ∨ fval64 v < 0)

/-- Rounds_64 (42_float.md R262), on the 56 bits that are the number. -/
def rounds64 (zero : BitVec 56) (x : ℚ) (d : BitVec 64) : Prop :=
  (x = 0 → d.extractLsb' 8 56 = zero) ∧
    (inRange64 x → normalized64 d = true ∧ ∀ v : BitVec 64, normalized64 v = true →
      ¬(x ≤ fval64 v ∧ fval64 v < fval64 d) ∧ ¬(fval64 d < fval64 v ∧ fval64 v ≤ x))

/-- An operand of MLF or DVF: an unnormalized number is zero (42_float.md R276). -/
def fvalNormal32 (w : Word32) : ℚ := if normalized32 w then fval32 w else 0

end Sys2Proof.Machine
end

