-- ==== Sys2Proof/Certificates/Slice0/Obligations.lean ====
section
/-! DEFINITION. The statements for the provers, from the numbered rules of spec/. OAR receives the effective address
(log 15) and `draws` counts the free values (log 9) in every next state below. -/

open Sys2Proof Sys2Proof.Machine

/-- O1. Decoding the encoded bytes of any well-formed instruction gives it back, and leaves the rest (R100, R101, R102, R103, R104, R105, R106, R107, R108, R120, R123). -/
def Obligations.DecodeInvertsEncode : Prop :=
  ∀ (i : Instr) (rest : List Byte), WellFormed i = true → decode ((encode i).bytes ++ rest) = .ok (i, rest)

/-- O2. The decoder answers only well-formed instructions and consumes two or four bytes, as the length rule says (R100, R123). -/
def Obligations.DecodedIsWellFormed : Prop :=
  ∀ (bytes rest : List Byte) (i : Instr), decode bytes = .ok (i, rest) →
    WellFormed i = true ∧ ∃ b0 b1 more, bytes = b0 :: b1 :: more ∧
      (if isLong (b0 ++ b1) then ∃ b2 b3, more = b2 :: b3 :: rest else more = rest)

/-- O3. Exactly the unassigned operation codes are refused by the decoder (R106, R121, R124, R416). -/
def Obligations.UnassignedEncodings : Prop :=
  (∀ h : Half, isLong h = false →
    ((∃ e, decode (halfBytes h) = .error e) ↔
      h.extractLsb' 11 5 = 0b00000#5 ∧ (h.extractLsb' 7 4 = 0b0000#4 ∨ h.extractLsb' 7 4 = 0b1111#4))) ∧
  (∀ w : Word32, isLong (w.extractLsb' 16 16) = true →
    ((∃ e, decode (Code.long w).bytes = .error e) ↔
      w.extractLsb' 27 5 = 0b01100#5 ∧
        ¬((w.extractLsb' 18 4 = 0b0001#4 ∧ w.getLsbD 22 = false) ∨ w.extractLsb' 18 4 = 0b0010#4 ∨
          w.extractLsb' 18 4 = 0b0100#4 ∨ (w.extractLsb' 18 4 = 0b0110#4 ∧ w.extractLsb' 22 2 = 0b00#2) ∨
          w.extractLsb' 18 8 = 0b00001100#8 ∨ w.extractLsb' 18 8 = 0b01001000#8 ∨
          w.extractLsb' 18 8 = 0b10001000#8 ∨ w.extractLsb' 18 8 = 0b11001000#8)))

/-- O4. Words written out from the encoding tables decode to the instructions they stand for (R161, R205, R264, R301, R335, R351, R379, R400, R432, R450). -/
def Obligations.SampleWordsDecode : Prop :=
  decodeTableWord 32 0b00010100000000101111111111111011 = some (.ldaL 0 0 false true 0xFFFB) ∧
  decodeTableWord 16 0b1010001110000000 = some (.adurS 0) ∧
  decodeTableWord 32 0b10111111100000000011111000000000 = some (.adfrL 0 false false 15872) ∧
  decodeTableWord 32 0b10000100000000100000000011111111 = some (.andL 0 0 false true false 0xFF) ∧
  decodeTableWord 16 0b0000110010000100 = some (.srad 1 4) ∧
  decodeTableWord 32 0b00100100000110100000000000001010 = some (.icnL 0 3 false true 10) ∧
  decodeTableWord 32 0b01100101110010000000000001100100 = some (.jgf 7 100) ∧
  decodeTableWord 16 0b0000011010001001 = some (.lxa 9) ∧
  decodeTableWord 16 0b0100100010001011 = some (.dia false 17 true) ∧
  decodeTableWord 16 0b0010110000000010 = some (.mmf 0 2)

/-- O5. A step runs the instruction that the bytes at pc decode to, and then concludes (R68, R100, R128, R468). Between accesses only the I/O unit acts (AccessesAreTurns). What IR and irHeld receive is the model's reading of R24 (log 14). -/
def Obligations.StepRunsDecoded : Prop :=
  ∀ (s : State) (i : Instr) (rest : List Byte), s.halted = false → s.isPresent s.pc = true →
    let u := s.ioTurn
    u.settled →
    (isLong (u.mem.half u.pc) = false → decode (halfBytes (u.mem.half u.pc)) = .ok (i, rest) →
      step s = concluded (exec i (if isOdd u.pc then { u with ir := u.mem.word (u.pc - 1), irHeld := none }
        else { u with ir := u.mem.word u.pc, irHeld := some ⟨u.pc + 1, []⟩ }))) ∧
    (isLong (u.mem.half u.pc) = true → isOdd u.pc = false → u.isPresent (u.pc + 1) = true →
      decode (halfBytes (u.mem.half u.pc) ++ halfBytes (u.mem.half (u.pc + 1))) = .ok (i, rest) →
      step s = concluded (exec i { u with ir := u.mem.word u.pc, irHeld := none }))

/-- O6. A fetch from absent memory, of a long instruction at an odd address, or of an unassigned code stops by name (R66, R124, R128, R384). Between accesses only the I/O unit acts (AccessesAreTurns). -/
def Obligations.StepStops : Prop :=
  ∀ s : State, s.halted = false →
    let u := s.ioTurn
    u.settled →
    (u.isPresent u.pc = false → step s = .fault .nonexistentMemory) ∧
    (u.isPresent u.pc = true → isLong (u.mem.half u.pc) = true → isOdd u.pc = true → step s = .fault .misaligned) ∧
    (u.isPresent u.pc = true → isLong (u.mem.half u.pc) = true → isOdd u.pc = false →
      u.isPresent (u.pc + 1) = false → step s = .fault .nonexistentMemory) ∧
    (u.isPresent u.pc = true → isLong (u.mem.half u.pc) = false →
      (∃ e, decode (halfBytes (u.mem.half u.pc)) = .error e) → step s = .fault .unassignedOpcode) ∧
    (u.isPresent u.pc = true → isLong (u.mem.half u.pc) = true → isOdd u.pc = false → u.isPresent (u.pc + 1) = true →
      (∃ e, decode (halfBytes (u.mem.half u.pc) ++ halfBytes (u.mem.half (u.pc + 1))) = .error e) →
      step s = .fault .unassignedOpcode)

/-- O7. After a store into the word being executed, the second half runs as an old or the present content; without one, as the present (R82, 92_eei_decisions.md D28). Between accesses only the I/O unit acts (AccessesAreTurns). That the machine goes on here is the weaker treatment of 93_implementation_defined.md section 1 (log 14). -/
def Obligations.StaleFetchIsOldOrNew : Prop :=
  ∀ (s s1 : State) (i : Instr) (h : Held), let u := s.ioTurn
    u.irHeld = some h → h.addr = u.pc → s.fetch = .ok (i, s1) →
    ((∀ x ∈ u.ir.extractLsb' 0 16 :: h.past ++ [u.mem.half u.pc], isLong x = false) →
      ∃ x ∈ u.ir.extractLsb' 0 16 :: h.past ++ [u.mem.half u.pc], ∃ rest, decode (halfBytes x) = .ok (i, rest)) ∧
    (h.past = [] → isLong (u.mem.half u.pc) = false → ∃ rest, decode (halfBytes (u.mem.half u.pc)) = .ok (i, rest))

/-- O8. A halted machine fetches nothing, and a conclusion with nothing to do only counts the hold-off down (R407, R468, R477). That a halted step passes the recognition point and counts the hold-off down is the model's choice (log 29). -/
def Obligations.HaltedAndQuietSteps : Prop :=
  ∀ s : State, (s.halted = true → step s = finish s.conclude) ∧
    (s.arrivals = [] → s.srBit 14 = false → s.srBit 15 = false →
      s.conclude = .ok { s with holdoff := s.holdoff - 1 })

/-- O9. Every step keeps the invariant of the machine and its configuration (R7, R73, R82, R466, R472). That IR's second instruction is a right half is the model's reading of R24 and R82 (log 14, DEDUCED). -/
def Obligations.InvariantKept : Prop :=
  ∀ s t : State, s.Inv → step s = .next t → t.Inv ∧ t.cfg = s.cfg

/-- O10. The state after reset has the invariant (R521, R523). The values of the reset state are the model's choice, since the spec gives none (log 1, 2, 3, 4). -/
def Obligations.ResetHasInvariant : Prop :=
  State.reset.Inv

/-- O11. No instruction changes a protected or an absent halfword; only the I/O unit may write a protected one (R67, R73, R75, R80). -/
def Obligations.ProtectedMemoryUnchanged : Prop :=
  ∀ (i : Instr) (s t : State) (a : Addr), exec i s = .next t →
    ((s.isProtected a = true ∧ ∀ w ∈ s.ioWrites, w.addr ≠ a ∧ w.addr + 1 ≠ a) ∨ s.isPresent a = false) →
    t.mem.half a = s.mem.half a

/-- O12. Each status bit, and MR, changes only through the instructions the status table names for it (R28, R31, R35, R37, R38, R168). -/
def Obligations.StatusBitsWrittenOnlyByTheirInstructions : Prop :=
  ∀ (i : Instr) (s t : State), exec i s = .next t →
    (∀ n, n < 16 → n ∉ statusWritten i → t.srBit n = s.srBit n) ∧
    ((∀ x1 x2 d m m16, i ≠ .ldiL x1 x2 d m m16) → t.mr = s.mr)

/-- O13. An instruction writes at most the one index register it names, in the group SR0 and SR1 select (R28, R30). -/
def Obligations.IndexRegistersWrittenOnlyByTheirInstructions : Prop :=
  ∀ (i : Instr) (s t : State) (p : Fin 64), exec i s = .next t →
    (∀ n, indexWritten i = some n → p ≠ s.xrPlace n) → t.xrf.get p = s.xrf.get p

/-- O14. XR[n] is register n of the group 2 SR0 + SR1; a register written is read back and the other 63 are kept (R27, R28). -/
def Obligations.IndexRegisterFile : Prop :=
  ∀ (s : State) (n : BitVec 4) (v : Addr),
    (s.xrPlace n).val = 16 * (2 * (s.srBit 0).toNat + (s.srBit 1).toNat) + n.toNat ∧
    s.xr n = s.xrf.get (s.xrPlace n) ∧ (s.setXr n v).xr n = v ∧
    (∀ p, p ≠ s.xrPlace n → (s.setXr n v).xrf.get p = s.xrf.get p) ∧
    s.setXr n v = { s with xrf := (s.setXr n v).xrf }

/-- O15. Hidden latches and the lines to the outside change only through the instructions that name them (R24, R39, R40, R80, R82, R407, R466, R475, R483). That IR changes at fetch alone, and that irHeld keeps its halfword while its list of past contents only grows, is the model's reading of R24 and R82 (log 14, DEDUCED). busIn and ioLog are the model's form of the device oracle (log 18), ioWrites of what the I/O unit asks for (log 17). -/
def Obligations.LatchesWrittenOnlyByTheirInstructions : Prop :=
  ∀ (i : Instr) (s t : State), exec i s = .next t →
    t.cfg = s.cfg ∧ t.ir = s.ir ∧ t.holdoff = s.holdoff ∧
    t.switches = s.switches ∧ t.testSignal = s.testSignal ∧ t.arrivals = s.arrivals ∧
    (∃ ws, s.ioWrites = ws ++ t.ioWrites ∧ (s.srBit 14 = false → ws = [])) ∧
    (∃ l, t.irHeld = s.irHeld.map fun h => { h with past := h.past ++ l }) ∧
    ((∀ x1 m7, i ≠ .rtaS x1 m7) → (∀ x1 x2 d m h m16, i ≠ .rtaL x1 x2 d m h m16) → t.inService = s.inService) ∧
    ((∀ x1 x2 d m m16, i ≠ .ldiL x1 x2 d m m16) → isInputOutput i = false → t.pending = s.pending) ∧
    (i ≠ .hlt → t.halted = s.halted) ∧
    (isInputOutput i = false → t.busIn = s.busIn ∧ t.ioLog = s.ioLog)

/-- O16. A fullword or a halfword stored is read back, and no other byte changes but by the I/O unit before it (R63, R66, R67, R68). Between accesses only the I/O unit acts (AccessesAreTurns). What irHeld notes in the turn of a store is the model's reading of R82 (log 14, DEDUCED). -/
def Obligations.WrittenIsReadBack : Prop :=
  ∀ (s : State) (a : Addr), s.mem.wf = true →
    (∀ v : Word32, s.writable32 a = true → let u := s.storeTurn false a
      ∃ m, s.store32 a v = .ok { u with mem := m } ∧
      ({ u with mem := m } : State).read32 a = .ok v ∧ sameOutside u.mem m (2 * a.toNat) 4) ∧
    (∀ v : Half, s.writable16 a = true → let u := s.storeTurn true a
      ∃ m, s.store16 a v = .ok { u with mem := m } ∧
      ({ u with mem := m } : State).read16 a = .ok v ∧ sameOutside u.mem m (2 * a.toNat) 2)

/-- O17. Odd fullword addresses, absent memory and protected memory stop an access by name, in either half; memory, protection, Fast Scratchpad are ranges (R7, R70, R64, R66, R67, R73, R75). -/
def Obligations.AccessesStop : Prop :=
  ∀ (s : State) (a : Addr) (v : Word32) (h : Half),
    (isOdd a = true → s.load32 a = .error .misaligned ∧ s.load64 a = .error .misaligned ∧
      s.store32 a v = .error .misaligned) ∧
    (s.isPresent a = false → s.load16 a = .error .nonexistentMemory ∧ s.store16 a h = .error .nonexistentMemory) ∧
    (s.isPresent a = true → s.isProtected a = true → s.store16 a h = .error .protectedWrite) ∧
    (isOdd a = false →
      ((s.isPresent a = false ∨ s.isPresent (a + 1) = false) →
        s.load32 a = .error .nonexistentMemory ∧ s.load64 a = .error .nonexistentMemory) ∧
      ((s.isPresent (a + 2) = false ∨ s.isPresent (a + 3) = false) → s.load64 a = .error .nonexistentMemory) ∧
      (s.isPresent a = false → s.store32 a v = .error .nonexistentMemory) ∧
      (s.isPresent a = true → s.isProtected a = true → s.store32 a v = .error .protectedWrite) ∧
      (s.isPresent a = true → s.isProtected a = false → s.isPresent (a + 1) = false →
        s.store32 a v = .error .nonexistentMemory) ∧
      (s.isPresent a = true → s.isProtected a = false → s.isPresent (a + 1) = true → s.isProtected (a + 1) = true →
        s.store32 a v = .error .protectedWrite)) ∧
    (s.isPresent a = true ↔ ∃ r ∈ s.cfg.present, r.lo ≤ a.toNat ∧ a.toNat ≤ r.hi) ∧
    (s.isProtected a = true ↔ ∃ r ∈ s.cfg.protect, r.lo ≤ a.toNat ∧ a.toNat ≤ r.hi) ∧
    (s.inFast a = true ↔ s.cfg.fastLo ≤ a.toNat ∧ a.toNat ≤ s.cfg.fastHi) ∧
    (s.cfg = Config.baseline → (s.isPresent a = true ↔ 15872 ≤ a.toNat ∧ a.toNat ≤ 32767) ∧
      (s.inFast a = true ↔ 15872 ≤ a.toNat ∧ a.toNat ≤ 16383))

/-- O18. Reading and following a pointer chain change nothing but what the I/O unit writes meanwhile; a store also notes what it overwrites in IR (R68, R80, R82, R482, 92_eei_decisions.md D27). Between accesses only the I/O unit acts (AccessesAreTurns). State.steals, the I/O unit's requests access by access, is the model's form of the agent of R80 (log 17). What irHeld notes, in a turn (the fields held and unstored of Turned) and in the turn of a store, is the model's reading of R82, which does not state it (log 14, DEDUCED). -/
def Obligations.AccessesAreTurns : Prop :=
  ∀ s : State,
    (∀ t, ((∃ r v, s.operand r = .ok (v, t)) ∨ (∃ r v, s.indexOperand r = .ok (v, t)) ∨ t = s.ioTurn ∨
        ∃ desig index i m h m16 r, s.longRef desig index i m h m16 = .ok (r, t)) →
      s.Turned t ∧ (s.ioWrites = [] → t.mem = s.mem ∧ t.irHeld = s.irHeld) ∧
        (s.ioDeferred = [] → s.steals = [] → t = s)) ∧
    (∀ half a, s.storeTurn half a = { s.ioTurn with irHeld := s.ioTurn.irHeld.map fun h =>
      if h.addr = (if half then a else a + 1) then ⟨h.addr, h.past ++ [s.ioTurn.mem.half h.addr]⟩ else h }) ∧
    (∀ r, s.returnTurn r = if s.inFast r.addr then s.storeTurn r.half r.addr else s)

/-- O19. Short addresses: 15360 + 2F or 15872 + F unindexed, M7 + XR indexed, as halfwords with SR5; long and pointer sums (R109, R110, R111, R112, R113, R114, R116, R117). SHORT_PIVOT and SHORT_INDEXED_SCALE at their values are premises. -/
def Obligations.AddressesAndReferences : Prop :=
  ∀ (s : State) (x1 : BitVec 3) (x2 : BitVec 4) (m h : Bool) (m7 : BitVec 7) (m16 : BitVec 16) (w : Word32),
    s.cfg.shortPivot = 16384#18 → s.cfg.shortIndexedScale = 1#18 →
    let f := 512 * (s.srBit 4).toNat + 256 * (s.srBit 3).toNat + 128 * (s.srBit 2).toNat + m7.toNat
    (∃ a : Addr, a.toNat = (if s.srBit 5 then 15872 + f else 15360 + 2 * f) ∧
      s.shortRef 0 m7 = ⟨a, false, s.srBit 5⟩ ∧ s.shortObjectRef m7 = ⟨a, false, false⟩ ∧
      (s.srBit 6 = true → s.shortReturnRef m7 = ⟨a, false, s.srBit 5⟩)) ∧
    (x1 ≠ 0 → s.shortRef x1 m7 = ⟨m7.zeroExtend 18 + s.xr (x1.zeroExtend 4), false, s.srBit 5⟩) ∧
    (s.srBit 6 = false → s.shortReturnRef m7 = ⟨m7.zeroExtend 18 + s.xr 7, false, s.srBit 5⟩) ∧
    (∀ desig, s.longRef desig (s.longIndex x1 x2) false m h m16 = .ok (⟨m16.zeroExtend 18 +
      ((if x1 = 0 then 0 else s.xr (x1.zeroExtend 4)) + (if x2 = 0 then 0 else s.xr x2)), m, h⟩, s) ∧
      s.longRef desig (s.idx1 x1) false m h m16 = .ok (⟨m16.zeroExtend 18 +
        (if x1 = 0 then 0 else s.xr (x1.zeroExtend 4)), m, h⟩, s) ∧
      s.longRef desig (s.returnIndex x2) false m h m16 = .ok (⟨m16.zeroExtend 18 +
        ((if s.srBit 6 then 0 else s.xr 7) + (if x2 = 0 then 0 else s.xr x2)), m, h⟩, s)) ∧
    s.pointerAddr w = (w.extractLsb' 0 16).zeroExtend 18 +
      (if w.extractLsb' 23 3 = 0 then 0 else s.xr ((w.extractLsb' 23 3).zeroExtend 4)) +
      (if w.extractLsb' 19 4 = 0 then 0 else s.xr (w.extractLsb' 19 4))

/-- O20. An indirect chain of at most 16 pointer words gives the last word's address, M and H; a longer one, or one that cannot be read, stops (R109, R114, 92_eei_decisions.md D35). -/
def Obligations.IndirectChain : Prop :=
  ∀ (s t : State) (desig h : Bool) (index : Addr) (m16 : BitVec 16) (vs : List Word32), (desig && h) = false →
    (∀ w, s.pointers desig (m16.zeroExtend 18 + index) vs w t → vs.length + 1 ≤ 16 →
      s.longRef desig index true false h m16 = .ok (⟨s.pointerAddr w, w.getLsbD 17, w.getLsbD 16⟩, t)) ∧
    (∀ e, s.leads desig (m16.zeroExtend 18 + index) vs e t →
      (vs.length = 16 → s.longRef desig index true false h m16 = .error .tooManyLevels) ∧
      (∀ f, vs.length < 16 → t.load32 e = .error f → s.longRef desig index true false h m16 = .error f))

/-- O21. Immediate operands are sign extended or left adjusted; halfwords come left adjusted; fullwords as they stand (R86, R115, R116, R118, R355). Between accesses only the I/O unit acts (AccessesAreTurns). -/
def Obligations.OperandRules : Prop :=
  ∀ (s : State) (a : Addr), let u := s.ioTurn
    s.operand ⟨a, true, true⟩ = .ok ((a.extractLsb' 0 16 : Half) ++ 0#16, s) ∧
    (∃ v, s.operand ⟨a, true, false⟩ = .ok (v, s) ∧ v.toInt = (a.extractLsb' 0 16).toInt) ∧
    (s.isPresent a = true → s.operand ⟨a, false, true⟩ = .ok (u.mem.half a ++ 0#16, u)) ∧
    (s.readable32 a = true → s.operand ⟨a, false, false⟩ = .ok (u.mem.word a, u)) ∧
    (∀ h, s.indexOperand ⟨a, true, h⟩ = .ok (a, s)) ∧
    (∀ h, s.readable32 a = true → s.indexOperand ⟨a, false, h⟩ = .ok ((u.mem.word a).extractLsb' 0 18, u))

/-- O22. The uses of I, M and H that the manual forbids stop, each by its name (R114, R126, R169, R174, R202, R260, R300, R307, R415). That long ANDR, LORR and EXOR report H before M where the final word has both, and a forbidden H before an operand that cannot be read, is the model's choice (log 32). -/
def Obligations.ForbiddenDesignatorsStop : Prop :=
  ∀ (s t : State) (r : Ref),
    (∀ desig index h m16, s.longRef desig index true true h m16 = .error .immediateAndIndirect) ∧
    (∀ desig n ea h w, (desig && h) = false → s.load32 ea = .ok (w, t) → w.getLsbD 18 = true → w.getLsbD 17 = true →
      s.chain desig (n + 1) ea true false h = .error .immediateAndIndirect) ∧
    (∀ n ea w, s.load32 ea = .ok (w, t) → s.chain true (n + 1) ea true false true = .error .halfBeforeLast) ∧
    (∀ index m16 w, s.load32 (m16.zeroExtend 18 + index) = .ok (w, t) →
      s.longRef true index true false true m16 = .error .halfBeforeLast) ∧
    (∀ x1 x2 i m m16, t.longRef true (t.longIndex x1 x2) i m false m16 = .ok (r, s) → r.imm = true →
      exec (.staL x1 x2 i m m16) t = .fault .immediateOnStore ∧
      exec (.stbL x1 x2 i m m16) t = .fault .immediateOnStore) ∧
    (∀ x1 x2 i m m16, t.longRef true (t.longIndex x1 x2) i m true m16 = .ok (r, s) → r.imm = true →
      exec (.stahL x1 x2 i m m16) t = .fault .immediateOnStore ∧
      exec (.stbhL x1 x2 i m m16) t = .fault .immediateOnStore) ∧
    (∀ x1 x2 i m h m16, t.longRef false (t.longIndex x1 x2) i m h m16 = .ok (r, s) → r.imm = true →
      exec (.sthL x1 x2 i m h m16) t = .fault .immediateOnStore) ∧
    (∀ x1 x2 i m m16, t.longRef false (t.longIndex x1 x2) i m true m16 = .ok (r, s) → r.imm = true →
      exec (.stiL x1 x2 i m m16) t = .fault .immediateOnStore ∧
      exec (.stsL x1 x2 i m m16) t = .fault .immediateOnStore) ∧
    (∀ x1 x2 i m h m16, t.longRef true (t.idx1 x1) i m h m16 = .ok (r, s) → r.imm = true →
      exec (.stxL x1 x2 i m h m16) t = .fault .immediateOnStore) ∧
    (∀ x1 x2 i m h m16, t.longRef true (t.idx1 x1) i m h m16 = .ok (r, s) → r.imm = false → r.half = true →
      exec (.stxL x1 x2 i m h m16) t = .fault .halfOnIndex) ∧
    (∀ x1 x2 i m h m16, t.longRef true (t.idx1 x1) i m h m16 = .ok (r, s) → r.half = true →
      exec (.ldxL x1 x2 i m h m16) t = .fault .halfOnIndex) ∧
    (∀ x1 x2 i m m16, t.longRef false (t.longIndex x1 x2) i m false m16 = .ok (r, s) → r.imm = true →
      exec (.adfL x1 x2 i m m16) t = .fault .immediateOnFloat ∧
      exec (.sbfL x1 x2 i m m16) t = .fault .immediateOnFloat ∧
      exec (.afdL x1 x2 i m m16) t = .fault .immediateOnFloat ∧
      exec (.sfdL x1 x2 i m m16) t = .fault .immediateOnFloat) ∧
    (∀ x1 x2 i m h m16, t.longRef false (t.longIndex x1 x2) i m h m16 = .ok (r, s) → r.imm = true →
      exec (.mlfL x1 x2 i m h m16) t = .fault .immediateOnFloat ∧
      exec (.dvfL x1 x2 i m h m16) t = .fault .immediateOnFloat) ∧
    (∀ x2 i m m16, t.longRef false (t.returnIndex x2) i m false m16 = .ok (r, s) → r.imm = true →
      exec (.adfrL x2 i m m16) t = .fault .immediateOnFloat ∧
      exec (.sbfrL x2 i m m16) t = .fault .immediateOnFloat ∧
      exec (.afdrL x2 i m m16) t = .fault .immediateOnFloat ∧
      exec (.sfdrL x2 i m m16) t = .fault .immediateOnFloat) ∧
    (∀ x2 i m h m16, t.longRef false (t.returnIndex x2) i m h m16 = .ok (r, s) → r.imm = true →
      exec (.mlfrL x2 i m h m16) t = .fault .immediateOnFloat ∧
      exec (.dvfrL x2 i m h m16) t = .fault .immediateOnFloat) ∧
    (∀ x2 i m m16, t.longRef true (t.returnIndex x2) i m false m16 = .ok (r, s) → r.imm = true →
      exec (.adurL x2 i m m16) t = .fault .returnImmediate ∧
      exec (.adlrL x2 i m m16) t = .fault .returnImmediate ∧
      exec (.sburL x2 i m m16) t = .fault .returnImmediate ∧
      exec (.sblrL x2 i m m16) t = .fault .returnImmediate ∧
      exec (.mulrL x2 i m m16) t = .fault .returnImmediate ∧
      exec (.dvdrL x2 i m m16) t = .fault .returnImmediate) ∧
    (∀ x2 i m m16, t.longRef true (t.returnIndex x2) i m true m16 = .ok (r, s) → r.imm = true →
      exec (.aduhrL x2 i m m16) t = .fault .returnImmediate ∧
      exec (.adlhrL x2 i m m16) t = .fault .returnImmediate ∧
      exec (.sbuhrL x2 i m m16) t = .fault .returnImmediate ∧
      exec (.sblhrL x2 i m m16) t = .fault .returnImmediate ∧
      exec (.mulhrL x2 i m m16) t = .fault .returnImmediate ∧
      exec (.dvdhrL x2 i m m16) t = .fault .returnImmediate) ∧
    (∀ x2 i m h m16, t.longRef true (t.returnIndex x2) i m h m16 = .ok (r, s) → r.imm = true → r.half = false →
      exec (.andrL x2 i m h m16) t = .fault .returnImmediate ∧
      exec (.lorrL x2 i m h m16) t = .fault .returnImmediate ∧
      exec (.exorL x2 i m h m16) t = .fault .returnImmediate) ∧
    (∀ x1 x2 i m h m16, t.longRef true (t.longIndex x1 x2) i m h m16 = .ok (r, s) → r.half = true →
      exec (.andL x1 x2 i m h m16) t = .fault .halfOnLogical ∧
      exec (.lorL x1 x2 i m h m16) t = .fault .halfOnLogical ∧
      exec (.exoL x1 x2 i m h m16) t = .fault .halfOnLogical ∧
      exec (.samL x1 x2 i m h m16) t = .fault .halfOnLogical) ∧
    (∀ x2 i m h m16, t.longRef true (t.returnIndex x2) i m h m16 = .ok (r, s) → r.half = true →
      exec (.andrL x2 i m h m16) t = .fault .halfOnLogical ∧
      exec (.lorrL x2 i m h m16) t = .fault .halfOnLogical ∧
      exec (.exorL x2 i m h m16) t = .fault .halfOnLogical) ∧
    (∀ x1 x2 i m h m16, t.longRef true (t.longIndex x1 x2) i m h m16 = .ok (r, s) → (r.imm = true ∨ r.half = true) →
      exec (.rtaL x1 x2 i m h m16) t = .fault .designatorOnRta) ∧
    exec (.lxa 0) s = .fault .lxaZero

/-- O23. LDA, LDAH, LDB and LDBH load the operand and change nothing else (R160, R161, R162, R163, R164). That OAR receives the effective address is the model's choice (log 15). Between accesses only the I/O unit acts (AccessesAreTurns). -/
def Obligations.LoadsComplete : Prop :=
  ∀ (s u : State) (r : Ref) (v : Word32), s.operand r = .ok (v, u) →
    (∀ x1 m7, s.shortRef x1 m7 = r →
      exec (.ldaS x1 m7) s = .next { u with regA := v, oar := r.addr, pc := s.pc + 1 } ∧
      exec (.ldbS x1 m7) s = .next { u with regB := v, oar := r.addr, pc := s.pc + 1 }) ∧
    (∀ t x1 x2 i m m16, t.longRef true (t.longIndex x1 x2) i m false m16 = .ok (r, s) →
      exec (.ldaL x1 x2 i m m16) t = .next { u with regA := v, oar := r.addr, pc := s.pc + 2 } ∧
      exec (.ldbL x1 x2 i m m16) t = .next { u with regB := v, oar := r.addr, pc := s.pc + 2 }) ∧
    (∀ t x1 x2 i m m16, t.longRef true (t.longIndex x1 x2) i m true m16 = .ok (r, s) →
      exec (.ldahL x1 x2 i m m16) t = .next { u with regA := v, oar := r.addr, pc := s.pc + 2 } ∧
      exec (.ldbhL x1 x2 i m m16) t = .next { u with regB := v, oar := r.addr, pc := s.pc + 2 })

/-- O24. LDX loads the named index register with 18 bits; LAE loads A with the effective address (R113, R118, R165, R166). That OAR receives the effective address is the model's choice (log 15). Between accesses only the I/O unit acts (AccessesAreTurns). -/
def Obligations.IndexAndAddressLoadsComplete : Prop :=
  (∀ (s u : State) (v : Addr) (x1 : BitVec 3) (m7 : BitVec 7), s.indexOperand (s.shortObjectRef m7) = .ok (v, u) →
    exec (.ldxS x1 m7) s = .next { u.setXr (x1.zeroExtend 4) v with
      oar := (s.shortObjectRef m7).addr, pc := s.pc + 1 }) ∧
  (∀ (s t u : State) (r : Ref) (v : Addr) (x1 : BitVec 3) (x2 : BitVec 4) (i m h : Bool) (m16 : BitVec 16),
    t.longRef true (t.idx1 x1) i m h m16 = .ok (r, s) → r.half = false → s.indexOperand r = .ok (v, u) →
    exec (.ldxL x1 x2 i m h m16) t = .next { u.setXr x2 v with oar := r.addr, pc := s.pc + 2 }) ∧
  (∀ (s : State) (x1 : BitVec 3) (m7 : BitVec 7), exec (.laeS x1 m7) s = .next { s with
    regA := 0#14 ++ (s.shortRef x1 m7).addr, oar := (s.shortRef x1 m7).addr, pc := s.pc + 1 }) ∧
  (∀ (s t : State) (r : Ref) (x1 : BitVec 3) (x2 : BitVec 4) (i m h : Bool) (m16 : BitVec 16),
    t.longRef false (t.longIndex x1 x2) i m h m16 = .ok (r, s) →
    exec (.laeL x1 x2 i m h m16) t = .next { s with regA := 0#14 ++ r.addr, oar := r.addr, pc := s.pc + 2 })

/-- O25. STA, STAH, STB, STBH and STH store the register's fullword or left half and no other byte (R67, R169, R170, R171, R172, R173). That OAR receives the effective address is the model's choice (log 15). Between accesses only the I/O unit acts (AccessesAreTurns). What irHeld notes in the turn of a store is the model's reading of R82 (log 14, DEDUCED). -/
def Obligations.StoresComplete : Prop :=
  ∀ (s : State) (r : Ref), s.mem.wf = true → r.imm = false →
    (s.writable r = true → let u := s.storeTurn r.half r.addr
      (∀ x1 m7, s.shortRef x1 m7 = r →
        (∃ m', exec (.staS x1 m7) s = .next { u with mem := m', oar := r.addr, pc := s.pc + 1 } ∧
          stored u.mem m' r s.regA) ∧
        (∃ m', exec (.stbS x1 m7) s = .next { u with mem := m', oar := r.addr, pc := s.pc + 1 } ∧
          stored u.mem m' r s.regB)) ∧
      (∀ t x1 x2 i m m16, t.longRef true (t.longIndex x1 x2) i m false m16 = .ok (r, s) →
        (∃ m', exec (.staL x1 x2 i m m16) t = .next { u with mem := m', oar := r.addr, pc := s.pc + 2 } ∧
          stored u.mem m' r s.regA) ∧
        (∃ m', exec (.stbL x1 x2 i m m16) t = .next { u with mem := m', oar := r.addr, pc := s.pc + 2 } ∧
          stored u.mem m' r s.regB)) ∧
      (∀ t x1 x2 i m m16, t.longRef true (t.longIndex x1 x2) i m true m16 = .ok (r, s) →
        (∃ m', exec (.stahL x1 x2 i m m16) t = .next { u with mem := m', oar := r.addr, pc := s.pc + 2 } ∧
          stored u.mem m' r s.regA) ∧
        (∃ m', exec (.stbhL x1 x2 i m m16) t = .next { u with mem := m', oar := r.addr, pc := s.pc + 2 } ∧
          stored u.mem m' r s.regB))) ∧
    (s.writable16 r.addr = true → let u := s.storeTurn true r.addr
      (∀ x1 m7, s.shortRef x1 m7 = r →
        (∃ m', exec (.sthS x1 m7) s = .next { u with mem := m', oar := r.addr, pc := s.pc + 1 } ∧
          storedHalf u.mem m' r.addr (s.regA.extractLsb' 16 16))) ∧
      (∀ t x1 x2 i m h m16, t.longRef false (t.longIndex x1 x2) i m h m16 = .ok (r, s) →
        (∃ m', exec (.sthL x1 x2 i m h m16) t = .next { u with mem := m', oar := r.addr, pc := s.pc + 2 } ∧
          storedHalf u.mem m' r.addr (s.regA.extractLsb' 16 16))))

/-- O26. STX, STI and STS store index register, mask and status in their places of a fullword and no other byte (R33, R38, R174, R175, R176). That OAR receives the effective address is the model's choice (log 15). `draws` counts the model's free values (log 9). Between accesses only the I/O unit acts (AccessesAreTurns). What irHeld notes in the turn of a store is the model's reading of R82 (log 14, DEDUCED). -/
def Obligations.SpecialStoresComplete : Prop :=
  ∀ (s : State) (r : Ref), s.mem.wf = true → r.imm = false → s.writable32 r.addr = true → let u := s.storeTurn false r.addr
    (∀ x1 m7, s.shortObjectRef m7 = r → ∃ m' w n,
      exec (.stxS x1 m7) s = .next { u with mem := m', oar := r.addr, pc := s.pc + 1, draws := n } ∧
      storedWord u.mem m' r.addr w ∧ w.extractLsb' 0 18 = s.xr (x1.zeroExtend 4)) ∧
    (∀ t x1 x2 i m h m16, t.longRef true (t.idx1 x1) i m h m16 = .ok (r, s) → r.half = false → ∃ m' w n,
      exec (.stxL x1 x2 i m h m16) t = .next { u with mem := m', oar := r.addr, pc := s.pc + 2, draws := n } ∧
      storedWord u.mem m' r.addr w ∧ w.extractLsb' 0 18 = s.xr x2) ∧
    (∀ t x1 x2 i m m16, t.longRef false (t.longIndex x1 x2) i m true m16 = .ok (r, s) →
      (∃ m' w n, exec (.stiL x1 x2 i m m16) t =
          .next { u with mem := m', oar := r.addr, pc := s.pc + 2, draws := n } ∧
        storedWord u.mem m' r.addr w ∧ w.extractLsb' 15 16 = s.mr) ∧
      (∃ m' w n, exec (.stsL x1 x2 i m m16) t =
          .next { u with mem := m', oar := r.addr, pc := s.pc + 2, draws := n } ∧
        storedWord u.mem m' r.addr w ∧ w.extractLsb' 23 8 = s.sr.extractLsb' 8 8 ∧ w.extractLsb' 15 8 = 0#8 ∧
        w.extractLsb' 7 8 = s.sr.extractLsb' 0 8))

/-- O27. LDS loads SR bit by bit from its layout, LDI loads MR and drops the requests that become masked (R33, R38, R167, R168, R466). That OAR receives the effective address is the model's choice (log 15). Between accesses only the I/O unit acts (AccessesAreTurns). MRn governs level n in every configuration (log 33). -/
def Obligations.StatusAndMaskLoadsComplete : Prop :=
  ∀ (s t : State) (r : Ref) (x1 : BitVec 3) (x2 : BitVec 4) (i m : Bool) (m16 : BitVec 16),
    t.longRef false (t.longIndex x1 x2) i m true m16 = .ok (r, s) → (r.imm = false → s.readable32 r.addr = true) →
    let u := if r.imm then s else s.ioTurn
    (∃ v, exec (.ldsL x1 x2 i m m16) t = .next { u with sr := v, oar := r.addr, pc := s.pc + 2 } ∧
      (r.imm = false → ∀ n, n < 8 → v.getLsbD n = (u.mem.word r.addr).getLsbD (31 - (24 - n)) ∧
        v.getLsbD (n + 8) = (u.mem.word r.addr).getLsbD (31 - (16 - (n + 8)))) ∧
      (r.imm = true → ∀ n, n < 8 → v.getLsbD n = r.addr.getLsbD (31 - (24 - n)) ∧
        v.getLsbD (n + 8) = s.sr.getLsbD (n + 8))) ∧
    (∃ v p, exec (.ldiL x1 x2 i m m16) t = .next { u with mr := v, pending := p, oar := r.addr, pc := s.pc + 2 } ∧
      (r.imm = false → ∀ n, n < 16 → v.getLsbD n = (u.mem.word r.addr).getLsbD (31 - (16 - n))) ∧
      (r.imm = true → v = (r.addr.extractLsb' 0 15 ++ 0#1 : BitVec 16)) ∧
      (∀ n, n < 16 → p.getLsbD n = (s.pending.getLsbD n && (if s.cfg.mrOneAllows then v.getLsbD n else !v.getLsbD n))))

/-- O28. LDS after STS restores SR, and LDI after STI restores MR, whatever happened to the register between (R33, R38, R167, R168, R175, R176). -/
def Obligations.StatusAndMaskRoundTrip : Prop :=
  ∀ (s t : State) (m16 : BitVec 16), s.mem.wf = true → (∀ w ∈ s.ioWrites, w.addr ≠ m16.zeroExtend 18) →
    (exec (.stsL 0 0 false false m16) s = .next t →
      ∀ v, ∃ u, exec (.ldsL 0 0 false false m16) { t with sr := v } = .next u ∧ u.sr = s.sr) ∧
    (exec (.stiL 0 0 false false m16) s = .next t →
      ∀ v, ∃ u, exec (.ldiL 0 0 false false m16) { t with mr := v } = .next u ∧ u.mr = s.mr)

/-- O29. ADU and SBU work on A with the carry and clear SR12, SR13; ADL and SBL work on B and record it; also as halfwords (R34, R201, R203, R204, R207, R208, R211, R212, R215, R216). That OAR receives the effective address is the model's choice (log 15). Between accesses only the I/O unit acts (AccessesAreTurns). -/
def Obligations.AddSubtract : Prop :=
  ∀ (s u : State) (r : Ref) (v : Word32), s.operand r = .ok (v, u) →
    (∀ x1 m7, s.shortRef x1 m7 = r →
      exec (.aduS x1 m7) s = .next { u with
        regA := s.regA + v + s.carryIn, sr := cleared s.sr, oar := r.addr, pc := s.pc + 1 } ∧
      exec (.sbuS x1 m7) s = .next { u with
        regA := s.regA - v - s.carryIn, sr := cleared s.sr, oar := r.addr, pc := s.pc + 1 } ∧
      exec (.adlS x1 m7) s = .next { u with
        regB := s.regB + v, sr := recorded s.sr (decide (2 ^ 32 ≤ s.regB.toNat + v.toNat)), oar := r.addr, pc := s.pc + 1 } ∧
      exec (.sblS x1 m7) s = .next { u with
        regB := s.regB - v, sr := recorded s.sr (decide (s.regB.toNat < v.toNat)), oar := r.addr, pc := s.pc + 1 }) ∧
    (∀ t x1 x2 i m m16, t.longRef true (t.longIndex x1 x2) i m false m16 = .ok (r, s) →
      exec (.aduL x1 x2 i m m16) t = .next { u with
        regA := s.regA + v + s.carryIn, sr := cleared s.sr, oar := r.addr, pc := s.pc + 2 } ∧
      exec (.sbuL x1 x2 i m m16) t = .next { u with
        regA := s.regA - v - s.carryIn, sr := cleared s.sr, oar := r.addr, pc := s.pc + 2 } ∧
      exec (.adlL x1 x2 i m m16) t = .next { u with
        regB := s.regB + v, sr := recorded s.sr (decide (2 ^ 32 ≤ s.regB.toNat + v.toNat)), oar := r.addr, pc := s.pc + 2 } ∧
      exec (.sblL x1 x2 i m m16) t = .next { u with
        regB := s.regB - v, sr := recorded s.sr (decide (s.regB.toNat < v.toNat)), oar := r.addr, pc := s.pc + 2 }) ∧
    (∀ t x1 x2 i m m16, t.longRef true (t.longIndex x1 x2) i m true m16 = .ok (r, s) →
      exec (.aduhL x1 x2 i m m16) t = .next { u with
        regA := s.regA + v + s.carryIn, sr := cleared s.sr, oar := r.addr, pc := s.pc + 2 } ∧
      exec (.sbuhL x1 x2 i m m16) t = .next { u with
        regA := s.regA - v - s.carryIn, sr := cleared s.sr, oar := r.addr, pc := s.pc + 2 } ∧
      exec (.adlhL x1 x2 i m m16) t = .next { u with
        regB := s.regB + v, sr := recorded s.sr (decide (2 ^ 32 ≤ s.regB.toNat + v.toNat)), oar := r.addr, pc := s.pc + 2 } ∧
      exec (.sblhL x1 x2 i m m16) t = .next { u with
        regB := s.regB - v, sr := recorded s.sr (decide (s.regB.toNat < v.toNat)), oar := r.addr, pc := s.pc + 2 })

/-- O30. ADUR, ADLR, SBUR, SBLR and their halfword variants store the result in the Fast Scratchpad and keep the register (R68, R202, R205, R206, R209, R210, R213, R214, R217, R218). That OAR receives the effective address is the model's choice (log 15). Between accesses only the I/O unit acts (AccessesAreTurns). What irHeld notes in the turn of a store is the model's reading of R82 (log 14, DEDUCED). -/
def Obligations.ReturnVariantsStore : Prop :=
  ∀ (s u : State) (r : Ref) (v : Word32), s.mem.wf = true → s.operand r = .ok (v, u) → r.imm = false →
    s.inFast r.addr = true → s.writable r = true → let w := u.storeTurn r.half r.addr
    (∀ m7, s.shortReturnRef m7 = r →
      (∃ m', exec (.adurS m7) s =
          .next { w with mem := m', sr := cleared s.sr, oar := r.addr, pc := s.pc + 1 } ∧
        stored w.mem m' r (s.regA + v + s.carryIn)) ∧
      (∃ m', exec (.sburS m7) s =
          .next { w with mem := m', sr := cleared s.sr, oar := r.addr, pc := s.pc + 1 } ∧
        stored w.mem m' r (s.regA - v - s.carryIn)) ∧
      (∃ m', exec (.adlrS m7) s =
          .next { w with mem := m', sr := recorded s.sr (decide (2 ^ 32 ≤ s.regB.toNat + v.toNat)), oar := r.addr, pc := s.pc + 1 } ∧
        stored w.mem m' r (s.regB + v)) ∧
      (∃ m', exec (.sblrS m7) s =
          .next { w with mem := m', sr := recorded s.sr (decide (s.regB.toNat < v.toNat)), oar := r.addr, pc := s.pc + 1 } ∧
        stored w.mem m' r (s.regB - v))) ∧
    (∀ t x2 i m m16, t.longRef true (t.returnIndex x2) i m false m16 = .ok (r, s) →
      (∃ m', exec (.adurL x2 i m m16) t =
          .next { w with mem := m', sr := cleared s.sr, oar := r.addr, pc := s.pc + 2 } ∧
        stored w.mem m' r (s.regA + v + s.carryIn)) ∧
      (∃ m', exec (.sburL x2 i m m16) t =
          .next { w with mem := m', sr := cleared s.sr, oar := r.addr, pc := s.pc + 2 } ∧
        stored w.mem m' r (s.regA - v - s.carryIn)) ∧
      (∃ m', exec (.adlrL x2 i m m16) t =
          .next { w with mem := m', sr := recorded s.sr (decide (2 ^ 32 ≤ s.regB.toNat + v.toNat)), oar := r.addr, pc := s.pc + 2 } ∧
        stored w.mem m' r (s.regB + v)) ∧
      (∃ m', exec (.sblrL x2 i m m16) t =
          .next { w with mem := m', sr := recorded s.sr (decide (s.regB.toNat < v.toNat)), oar := r.addr, pc := s.pc + 2 } ∧
        stored w.mem m' r (s.regB - v))) ∧
    (∀ t x2 i m m16, t.longRef true (t.returnIndex x2) i m true m16 = .ok (r, s) →
      (∃ m', exec (.aduhrL x2 i m m16) t =
          .next { w with mem := m', sr := cleared s.sr, oar := r.addr, pc := s.pc + 2 } ∧
        stored w.mem m' r (s.regA + v + s.carryIn)) ∧
      (∃ m', exec (.sbuhrL x2 i m m16) t =
          .next { w with mem := m', sr := cleared s.sr, oar := r.addr, pc := s.pc + 2 } ∧
        stored w.mem m' r (s.regA - v - s.carryIn)) ∧
      (∃ m', exec (.adlhrL x2 i m m16) t =
          .next { w with mem := m', sr := recorded s.sr (decide (2 ^ 32 ≤ s.regB.toNat + v.toNat)), oar := r.addr, pc := s.pc + 2 } ∧
        stored w.mem m' r (s.regB + v)) ∧
      (∃ m', exec (.sblhrL x2 i m m16) t =
          .next { w with mem := m', sr := recorded s.sr (decide (s.regB.toNat < v.toNat)), oar := r.addr, pc := s.pc + 2 } ∧
        stored w.mem m' r (s.regB - v)))

/-- O31. A return to memory variant whose operand is not in the Fast Scratchpad behaves like a NOP (R202, R302, R304, R306, 92_eei_decisions.md D10). That OAR receives the effective address is the model's choice (log 15). Between accesses only the I/O unit acts (AccessesAreTurns). -/
def Obligations.ReturnVariantsOutsideFast : Prop :=
  ∀ (s u : State) (r : Ref) (v : Word32), s.operand r = .ok (v, u) → r.imm = false → s.inFast r.addr = false →
    (∀ m7, s.shortReturnRef m7 = r →
      exec (.adurS m7) s = .next { u with oar := r.addr, pc := s.pc + 1 } ∧
      exec (.sburS m7) s = .next { u with oar := r.addr, pc := s.pc + 1 } ∧
      exec (.adlrS m7) s = .next { u with oar := r.addr, pc := s.pc + 1 } ∧
      exec (.sblrS m7) s = .next { u with oar := r.addr, pc := s.pc + 1 }) ∧
    (∀ t x2 i m m16, t.longRef true (t.returnIndex x2) i m false m16 = .ok (r, s) →
      exec (.adurL x2 i m m16) t = .next { u with oar := r.addr, pc := s.pc + 2 } ∧
      exec (.sburL x2 i m m16) t = .next { u with oar := r.addr, pc := s.pc + 2 } ∧
      exec (.adlrL x2 i m m16) t = .next { u with oar := r.addr, pc := s.pc + 2 } ∧
      exec (.sblrL x2 i m m16) t = .next { u with oar := r.addr, pc := s.pc + 2 }) ∧
    (∀ t x2 i m m16, t.longRef true (t.returnIndex x2) i m true m16 = .ok (r, s) →
      exec (.aduhrL x2 i m m16) t = .next { u with oar := r.addr, pc := s.pc + 2 } ∧
      exec (.sbuhrL x2 i m m16) t = .next { u with oar := r.addr, pc := s.pc + 2 } ∧
      exec (.adlhrL x2 i m m16) t = .next { u with oar := r.addr, pc := s.pc + 2 } ∧
      exec (.sblhrL x2 i m m16) t = .next { u with oar := r.addr, pc := s.pc + 2 }) ∧
    (∀ m7, s.shortReturnRef m7 = r →
      exec (.andrS m7) s = .next { u with oar := r.addr, pc := s.pc + 1 } ∧
      exec (.lorrS m7) s = .next { u with oar := r.addr, pc := s.pc + 1 } ∧
      exec (.exorS m7) s = .next { u with oar := r.addr, pc := s.pc + 1 }) ∧
    (∀ t x2 i m h m16, t.longRef true (t.returnIndex x2) i m h m16 = .ok (r, s) → r.half = false →
      exec (.andrL x2 i m h m16) t = .next { u with oar := r.addr, pc := s.pc + 2 } ∧
      exec (.lorrL x2 i m h m16) t = .next { u with oar := r.addr, pc := s.pc + 2 } ∧
      exec (.exorL x2 i m h m16) t = .next { u with oar := r.addr, pc := s.pc + 2 })

/-- O32. ADL then ADU adds, and SBL then SBU subtracts, 64 bits in (A,B), and leaves SR12 and SR13 clear, in every form (R34, R227). -/
def Obligations.DoublePrecisionPair : Prop :=
  ∀ (s t u : State) (i j : Instr) (lo hi : Word32), s.readsOperand i lo → exec i s = .next t →
    t.readsOperand j hi → exec j t = .next u →
    (isAdl i = true → isAdu j = true →
      u.regA ++ u.regB = (s.regA ++ s.regB) + (hi ++ lo) ∧ u.srBit 12 = false ∧ u.srBit 13 = false) ∧
    (isSbl i = true → isSbu j = true →
      u.regA ++ u.regB = (s.regA ++ s.regB) - (hi ++ lo) ∧ u.srBit 12 = false ∧ u.srBit 13 = false)

/-- O33. MUL leaves the 63 bit product and the sign of A in (A,B); MULH the 31 bit product in A bits 0..30 (R219, R220, 92_eei_decisions.md D13). That OAR receives the effective address is the model's choice (log 15). `draws` counts the model's free values (log 9). Between accesses only the I/O unit acts (AccessesAreTurns). -/
def Obligations.MultiplyProducts : Prop :=
  ∀ (s u : State) (r : Ref) (v : Word32), s.operand r = .ok (v, u) →
    (r.half = false →
      (∀ x1 m7, s.shortRef x1 m7 = r →
        (∃ ab : BitVec 64, exec (.mulS x1 m7) s = .next { u with
          regA := ab.extractLsb' 32 32, regB := ab.extractLsb' 0 32, oar := r.addr, pc := s.pc + 1 } ∧
        ab.extractLsb' 1 63 = BitVec.ofInt 63 (s.regA.toInt * v.toInt) ∧ ab.getLsbD 0 = s.regA.msb ∧
        (¬(s.regA = 0x80000000#32 ∧ v = 0x80000000#32) → (ab.extractLsb' 1 63).toInt = s.regA.toInt * v.toInt))) ∧
      (∀ t x1 x2 i m m16, t.longRef true (t.longIndex x1 x2) i m false m16 = .ok (r, s) →
        (∃ ab : BitVec 64, exec (.mulL x1 x2 i m m16) t = .next { u with
          regA := ab.extractLsb' 32 32, regB := ab.extractLsb' 0 32, oar := r.addr, pc := s.pc + 2 } ∧
        ab.extractLsb' 1 63 = BitVec.ofInt 63 (s.regA.toInt * v.toInt) ∧ ab.getLsbD 0 = s.regA.msb ∧
        (¬(s.regA = 0x80000000#32 ∧ v = 0x80000000#32) → (ab.extractLsb' 1 63).toInt = s.regA.toInt * v.toInt)))) ∧
    (r.half = true →
      (∀ x1 m7, s.shortRef x1 m7 = r →
        (∃ a n, exec (.mulS x1 m7) s = .next { u with regA := a, oar := r.addr, pc := s.pc + 1, draws := n } ∧
        a.extractLsb' 1 31 = BitVec.ofInt 31 ((s.regA.extractLsb' 16 16).toInt * (v.extractLsb' 16 16).toInt))) ∧
      (∀ t x1 x2 i m m16, t.longRef true (t.longIndex x1 x2) i m false m16 = .ok (r, s) →
        (∃ a n, exec (.mulL x1 x2 i m m16) t = .next { u with regA := a, oar := r.addr, pc := s.pc + 2, draws := n } ∧
        a.extractLsb' 1 31 = BitVec.ofInt 31 ((s.regA.extractLsb' 16 16).toInt * (v.extractLsb' 16 16).toInt))) ∧
      (∀ t x1 x2 i m m16, t.longRef true (t.longIndex x1 x2) i m true m16 = .ok (r, s) →
        (∃ a n, exec (.mulhL x1 x2 i m m16) t = .next { u with regA := a, oar := r.addr, pc := s.pc + 2, draws := n } ∧
        a.extractLsb' 1 31 = BitVec.ofInt 31 ((s.regA.extractLsb' 16 16).toInt * (v.extractLsb' 16 16).toInt))))

/-- O34. MULR and MULHR leave the product in the registers and also store A in the Fast Scratchpad (R202, R221, R222). That OAR receives the effective address is the model's choice (log 15). `draws` counts the model's free values (log 9). Between accesses only the I/O unit acts (AccessesAreTurns). What irHeld notes in the turn of a store is the model's reading of R82 (log 14, DEDUCED). -/
def Obligations.MultiplyReturns : Prop :=
  ∀ (s u : State) (r : Ref) (v : Word32), s.mem.wf = true → s.operand r = .ok (v, u) → r.imm = false →
    s.returnable r = true → let w := u.returnTurn r
    (r.half = false →
      (∀ m7, s.shortReturnRef m7 = r →
        (∃ (ab : BitVec 64) (m' : Memory), exec (.mulrS m7) s = .next { w with
          regA := ab.extractLsb' 32 32, regB := ab.extractLsb' 0 32, mem := m', oar := r.addr, pc := s.pc + 1 } ∧
        ab.extractLsb' 1 63 = BitVec.ofInt 63 (s.regA.toInt * v.toInt) ∧ ab.getLsbD 0 = s.regA.msb ∧
        w.returned m' r (ab.extractLsb' 32 32))) ∧
      (∀ t x2 i m m16, t.longRef true (t.returnIndex x2) i m false m16 = .ok (r, s) →
        (∃ (ab : BitVec 64) (m' : Memory), exec (.mulrL x2 i m m16) t = .next { w with
          regA := ab.extractLsb' 32 32, regB := ab.extractLsb' 0 32, mem := m', oar := r.addr, pc := s.pc + 2 } ∧
        ab.extractLsb' 1 63 = BitVec.ofInt 63 (s.regA.toInt * v.toInt) ∧ ab.getLsbD 0 = s.regA.msb ∧
        w.returned m' r (ab.extractLsb' 32 32)))) ∧
    (r.half = true →
      (∀ m7, s.shortReturnRef m7 = r →
        (∃ a m' n, exec (.mulrS m7) s = .next { w with
          regA := a, mem := m', oar := r.addr, pc := s.pc + 1, draws := n } ∧
        a.extractLsb' 1 31 = BitVec.ofInt 31 ((s.regA.extractLsb' 16 16).toInt * (v.extractLsb' 16 16).toInt) ∧
        w.returned m' r a)) ∧
      (∀ t x2 i m m16, t.longRef true (t.returnIndex x2) i m false m16 = .ok (r, s) →
        (∃ a m' n, exec (.mulrL x2 i m m16) t = .next { w with
          regA := a, mem := m', oar := r.addr, pc := s.pc + 2, draws := n } ∧
        a.extractLsb' 1 31 = BitVec.ofInt 31 ((s.regA.extractLsb' 16 16).toInt * (v.extractLsb' 16 16).toInt) ∧
        w.returned m' r a)) ∧
      (∀ t x2 i m m16, t.longRef true (t.returnIndex x2) i m true m16 = .ok (r, s) →
        (∃ a m' n, exec (.mulhrL x2 i m m16) t = .next { w with
          regA := a, mem := m', oar := r.addr, pc := s.pc + 2, draws := n } ∧
        a.extractLsb' 1 31 = BitVec.ofInt 31 ((s.regA.extractLsb' 16 16).toInt * (v.extractLsb' 16 16).toInt) ∧
        w.returned m' r a)))

/-- O35. DVD and DVDH leave a quotient that is a neighbour of the exact one, and the exact one where it is whole (R223, R224, 92_eei_decisions.md D14). That OAR receives the effective address is the model's choice (log 15). `draws` counts the model's free values (log 9). Between accesses only the I/O unit acts (AccessesAreTurns). Where the magnitude precondition fails the instruction goes on with free values (log 12). -/
def Obligations.DivideQuotients : Prop :=
  ∀ (s u : State) (r : Ref) (v : Word32), s.operand r = .ok (v, u) →
    (r.half = false →
      (∀ x1 m7, s.shortRef x1 m7 = r →
        (∃ q b n, exec (.dvdS x1 m7) s = .next { u with
          regA := q, regB := b, oar := r.addr, pc := s.pc + 1, draws := n } ∧
        (s.regA.toInt.natAbs < v.toInt.natAbs → quotientOf (dividend (s.regA ++ s.regB)) v.toInt q.toInt))) ∧
      (∀ t x1 x2 i m m16, t.longRef true (t.longIndex x1 x2) i m false m16 = .ok (r, s) →
        (∃ q b n, exec (.dvdL x1 x2 i m m16) t = .next { u with
          regA := q, regB := b, oar := r.addr, pc := s.pc + 2, draws := n } ∧
        (s.regA.toInt.natAbs < v.toInt.natAbs → quotientOf (dividend (s.regA ++ s.regB)) v.toInt q.toInt)))) ∧
    (r.half = true →
      (∀ x1 m7, s.shortRef x1 m7 = r →
        (∃ a b n, exec (.dvdS x1 m7) s = .next { u with
          regA := a, regB := b, oar := r.addr, pc := s.pc + 1, draws := n } ∧
        ((s.regA.extractLsb' 16 16).toInt.natAbs < (v.extractLsb' 16 16).toInt.natAbs → b = s.regB ∧
          (s.regA.extractLsb' 0 16 = 0#16 → quotientOf ((s.regA.extractLsb' 16 16).toInt * 2 ^ 15)
            (v.extractLsb' 16 16).toInt (a.extractLsb' 16 16).toInt)))) ∧
      (∀ t x1 x2 i m m16, t.longRef true (t.longIndex x1 x2) i m false m16 = .ok (r, s) →
        (∃ a b n, exec (.dvdL x1 x2 i m m16) t = .next { u with
          regA := a, regB := b, oar := r.addr, pc := s.pc + 2, draws := n } ∧
        ((s.regA.extractLsb' 16 16).toInt.natAbs < (v.extractLsb' 16 16).toInt.natAbs → b = s.regB ∧
          (s.regA.extractLsb' 0 16 = 0#16 → quotientOf ((s.regA.extractLsb' 16 16).toInt * 2 ^ 15)
            (v.extractLsb' 16 16).toInt (a.extractLsb' 16 16).toInt)))) ∧
      (∀ t x1 x2 i m m16, t.longRef true (t.longIndex x1 x2) i m true m16 = .ok (r, s) →
        (∃ a b n, exec (.dvdhL x1 x2 i m m16) t = .next { u with
          regA := a, regB := b, oar := r.addr, pc := s.pc + 2, draws := n } ∧
        ((s.regA.extractLsb' 16 16).toInt.natAbs < (v.extractLsb' 16 16).toInt.natAbs → b = s.regB ∧
          (s.regA.extractLsb' 0 16 = 0#16 → quotientOf ((s.regA.extractLsb' 16 16).toInt * 2 ^ 15)
            (v.extractLsb' 16 16).toInt (a.extractLsb' 16 16).toInt)))))

/-- O36. DVDR and DVDHR leave the quotient in A and also store it in the Fast Scratchpad (R202, R225, R226). That OAR receives the effective address is the model's choice (log 15). `draws` counts the model's free values (log 9). Between accesses only the I/O unit acts (AccessesAreTurns). Where the magnitude precondition fails the instruction goes on with free values (log 12). What irHeld notes in the turn of a store is the model's reading of R82 (log 14, DEDUCED). -/
def Obligations.DivideReturns : Prop :=
  ∀ (s u : State) (r : Ref) (v : Word32), s.mem.wf = true → s.operand r = .ok (v, u) → r.imm = false →
    s.returnable r = true → let w := u.returnTurn r
    (r.half = false →
      (∀ m7, s.shortReturnRef m7 = r →
        (∃ q b m' n, exec (.dvdrS m7) s = .next { w with
          regA := q, regB := b, mem := m', oar := r.addr, pc := s.pc + 1, draws := n } ∧
        (s.regA.toInt.natAbs < v.toInt.natAbs → quotientOf (dividend (s.regA ++ s.regB)) v.toInt q.toInt) ∧
        w.returned m' r q)) ∧
      (∀ t x2 i m m16, t.longRef true (t.returnIndex x2) i m false m16 = .ok (r, s) →
        (∃ q b m' n, exec (.dvdrL x2 i m m16) t = .next { w with
          regA := q, regB := b, mem := m', oar := r.addr, pc := s.pc + 2, draws := n } ∧
        (s.regA.toInt.natAbs < v.toInt.natAbs → quotientOf (dividend (s.regA ++ s.regB)) v.toInt q.toInt) ∧
        w.returned m' r q))) ∧
    (r.half = true →
      (∀ m7, s.shortReturnRef m7 = r →
        (∃ a b m' n, exec (.dvdrS m7) s = .next { w with
          regA := a, regB := b, mem := m', oar := r.addr, pc := s.pc + 1, draws := n } ∧
        ((s.regA.extractLsb' 16 16).toInt.natAbs < (v.extractLsb' 16 16).toInt.natAbs → b = s.regB ∧
          (s.regA.extractLsb' 0 16 = 0#16 → quotientOf ((s.regA.extractLsb' 16 16).toInt * 2 ^ 15)
            (v.extractLsb' 16 16).toInt (a.extractLsb' 16 16).toInt)) ∧
        w.returned m' r a)) ∧
      (∀ t x2 i m m16, t.longRef true (t.returnIndex x2) i m false m16 = .ok (r, s) →
        (∃ a b m' n, exec (.dvdrL x2 i m m16) t = .next { w with
          regA := a, regB := b, mem := m', oar := r.addr, pc := s.pc + 2, draws := n } ∧
        ((s.regA.extractLsb' 16 16).toInt.natAbs < (v.extractLsb' 16 16).toInt.natAbs → b = s.regB ∧
          (s.regA.extractLsb' 0 16 = 0#16 → quotientOf ((s.regA.extractLsb' 16 16).toInt * 2 ^ 15)
            (v.extractLsb' 16 16).toInt (a.extractLsb' 16 16).toInt)) ∧
        w.returned m' r a)) ∧
      (∀ t x2 i m m16, t.longRef true (t.returnIndex x2) i m true m16 = .ok (r, s) →
        (∃ a b m' n, exec (.dvdhrL x2 i m m16) t = .next { w with
          regA := a, regB := b, mem := m', oar := r.addr, pc := s.pc + 2, draws := n } ∧
        ((s.regA.extractLsb' 16 16).toInt.natAbs < (v.extractLsb' 16 16).toInt.natAbs → b = s.regB ∧
          (s.regA.extractLsb' 0 16 = 0#16 → quotientOf ((s.regA.extractLsb' 16 16).toInt * 2 ^ 15)
            (v.extractLsb' 16 16).toInt (a.extractLsb' 16 16).toInt)) ∧
        w.returned m' r a)))

/-- O37. ADF, SBF, AFD and SFD leave the exact sum or difference rounded to one of its two normalized neighbours; zero is FZERO (R68, R88, R90, R260, R262, R263, R265, R271, R273, R275, R276, R277). That OAR receives the effective address is the model's choice (log 15). `draws` counts the model's free values (log 9). Between accesses only the I/O unit acts (AccessesAreTurns). -/
def Obligations.FloatAddSubtract : Prop :=
  ∀ (s : State) (r : Ref),
    (mant32 s.zero32 = 0 ∧ exp32 s.zero32 = s.cfg.fzeroExp32 ∧ fval32 s.zero32 = 0 ∧
      mant64 (s.zero56 ++ 0#8) = 0 ∧ exp64 (s.zero56 ++ 0#8) = s.cfg.fzeroExp64 ∧ fval64 (s.zero56 ++ 0#8) = 0) ∧
    (r.imm = false → s.readable32 r.addr = true → let u := s.ioTurn
    (∀ x1 m7, s.shortRef x1 m7 = r →
      (∃ a n, exec (.adfS x1 m7) s = .next { u with
        regA := a, oar := r.addr, pc := s.pc + 1, draws := n } ∧
      rounds32 s.zero32 (fval32 s.regA + fval32 (u.mem.word r.addr)) a)) ∧
    (∀ t x1 x2 i m m16, t.longRef false (t.longIndex x1 x2) i m false m16 = .ok (r, s) →
      (∃ a n, exec (.adfL x1 x2 i m m16) t = .next { u with
        regA := a, oar := r.addr, pc := s.pc + 2, draws := n } ∧
      rounds32 s.zero32 (fval32 s.regA + fval32 (u.mem.word r.addr)) a)) ∧
    (∀ x1 m7, s.shortRef x1 m7 = r →
      (∃ a n, exec (.sbfS x1 m7) s = .next { u with
        regA := a, oar := r.addr, pc := s.pc + 1, draws := n } ∧
      rounds32 s.zero32 (fval32 s.regA - fval32 (u.mem.word r.addr)) a)) ∧
    (∀ t x1 x2 i m m16, t.longRef false (t.longIndex x1 x2) i m false m16 = .ok (r, s) →
      (∃ a n, exec (.sbfL x1 x2 i m m16) t = .next { u with
        regA := a, oar := r.addr, pc := s.pc + 2, draws := n } ∧
      rounds32 s.zero32 (fval32 s.regA - fval32 (u.mem.word r.addr)) a)) ∧
    (s.readable32 (r.addr + 2) = true → let u2 := u.ioTurn
    (∀ x1 m7, s.shortRef x1 m7 = r →
      (∃ (d : BitVec 64) (n : Nat), exec (.afdS x1 m7) s = .next { u2 with
        regA := d.extractLsb' 32 32, regB := d.extractLsb' 0 32, oar := r.addr, pc := s.pc + 1, draws := n } ∧
      rounds64 s.zero56 (fval64 (s.regA ++ s.regB) + fval64 (u.mem.word r.addr ++ u2.mem.word (r.addr + 2))) d)) ∧
    (∀ t x1 x2 i m m16, t.longRef false (t.longIndex x1 x2) i m false m16 = .ok (r, s) →
      (∃ (d : BitVec 64) (n : Nat), exec (.afdL x1 x2 i m m16) t = .next { u2 with
        regA := d.extractLsb' 32 32, regB := d.extractLsb' 0 32, oar := r.addr, pc := s.pc + 2, draws := n } ∧
      rounds64 s.zero56 (fval64 (s.regA ++ s.regB) + fval64 (u.mem.word r.addr ++ u2.mem.word (r.addr + 2))) d)) ∧
    (∀ x1 m7, s.shortRef x1 m7 = r →
      (∃ (d : BitVec 64) (n : Nat), exec (.sfdS x1 m7) s = .next { u2 with
        regA := d.extractLsb' 32 32, regB := d.extractLsb' 0 32, oar := r.addr, pc := s.pc + 1, draws := n } ∧
      rounds64 s.zero56 (fval64 (s.regA ++ s.regB) - fval64 (u.mem.word r.addr ++ u2.mem.word (r.addr + 2))) d)) ∧
    (∀ t x1 x2 i m m16, t.longRef false (t.longIndex x1 x2) i m false m16 = .ok (r, s) →
      (∃ (d : BitVec 64) (n : Nat), exec (.sfdL x1 x2 i m m16) t = .next { u2 with
        regA := d.extractLsb' 32 32, regB := d.extractLsb' 0 32, oar := r.addr, pc := s.pc + 2, draws := n } ∧
      rounds64 s.zero56 (fval64 (s.regA ++ s.regB) - fval64 (u.mem.word r.addr ++ u2.mem.word (r.addr + 2))) d))))

/-- O38. MLF leaves in (A,B) the exact product in double precision, an unnormalized operand counting as zero (R90, R260, R262, R267, R276, R277). That OAR receives the effective address is the model's choice (log 15). `draws` counts the model's free values (log 9). Between accesses only the I/O unit acts (AccessesAreTurns). -/
def Obligations.FloatMultiply : Prop :=
  ∀ (s : State) (r : Ref), r.imm = false → s.readable32 r.addr = true → let u := s.ioTurn
    (∀ x1 m7, s.shortRef x1 m7 = r →
      (∃ (d : BitVec 64) (n : Nat), exec (.mlfS x1 m7) s = .next { u with
        regA := d.extractLsb' 32 32, regB := d.extractLsb' 0 32, oar := r.addr, pc := s.pc + 1, draws := n } ∧
      rounds64 s.zero56 (fvalNormal32 s.regA * fvalNormal32 (u.mem.word r.addr)) d ∧
      (inRange64 (fvalNormal32 s.regA * fvalNormal32 (u.mem.word r.addr)) →
        fval64 d = fvalNormal32 s.regA * fvalNormal32 (u.mem.word r.addr) ∧ d.getLsbD 8 = false))) ∧
    (∀ t x1 x2 i m h m16, t.longRef false (t.longIndex x1 x2) i m h m16 = .ok (r, s) →
      (∃ (d : BitVec 64) (n : Nat), exec (.mlfL x1 x2 i m h m16) t = .next { u with
        regA := d.extractLsb' 32 32, regB := d.extractLsb' 0 32, oar := r.addr, pc := s.pc + 2, draws := n } ∧
      rounds64 s.zero56 (fvalNormal32 s.regA * fvalNormal32 (u.mem.word r.addr)) d ∧
      (inRange64 (fvalNormal32 s.regA * fvalNormal32 (u.mem.word r.addr)) →
        fval64 d = fvalNormal32 s.regA * fvalNormal32 (u.mem.word r.addr) ∧ d.getLsbD 8 = false)))

/-- O39. DVF leaves in A the quotient rounded to one of its two normalized neighbours; a zero divisor leaves anything (R260, R262, R269, R275, R276, 92_eei_decisions.md D14). That OAR receives the effective address is the model's choice (log 15). `draws` counts the model's free values (log 9). Between accesses only the I/O unit acts (AccessesAreTurns). -/
def Obligations.FloatDivide : Prop :=
  ∀ (s : State) (r : Ref), r.imm = false → s.readable32 r.addr = true → let u := s.ioTurn
    (∀ x1 m7, s.shortRef x1 m7 = r →
      (∃ d b n, exec (.dvfS x1 m7) s = .next { u with
        regA := d, regB := b, oar := r.addr, pc := s.pc + 1, draws := n } ∧
      (normalized32 (u.mem.word r.addr) = true →
        rounds32 s.zero32 ((if normalized32 s.regA then fval64 (s.regA ++ s.regB) else 0) / fval32 (u.mem.word r.addr)) d))) ∧
    (∀ t x1 x2 i m h m16, t.longRef false (t.longIndex x1 x2) i m h m16 = .ok (r, s) →
      (∃ d b n, exec (.dvfL x1 x2 i m h m16) t = .next { u with
        regA := d, regB := b, oar := r.addr, pc := s.pc + 2, draws := n } ∧
      (normalized32 (u.mem.word r.addr) = true →
        rounds32 s.zero32 ((if normalized32 s.regA then fval64 (s.regA ++ s.regB) else 0) / fval32 (u.mem.word r.addr)) d)))

/-- O40. ADFR, SBFR, MLFR, DVFR, AFDR and SFDR leave the base result in the registers and also store A in the Fast Scratchpad (R202, R264, R266, R268, R270, R272, R274). That OAR receives the effective address is the model's choice (log 15). `draws` counts the model's free values (log 9). Between accesses only the I/O unit acts (AccessesAreTurns). What irHeld notes in the turn of a store is the model's reading of R82 (log 14, DEDUCED). -/
def Obligations.FloatReturns : Prop :=
  ∀ (s : State) (r : Ref), s.mem.wf = true → r.imm = false → s.readable32 r.addr = true →
    s.returnable { r with half := false } = true → let u := s.ioTurn
    let w := u.returnTurn { r with half := false }
    (∀ m7, s.shortReturnRef m7 = r →
      (∃ a m' n, exec (.adfrS m7) s = .next { w with
        regA := a, mem := m', oar := r.addr, pc := s.pc + 1, draws := n } ∧
      rounds32 s.zero32 (fval32 s.regA + fval32 (u.mem.word r.addr)) a ∧ w.returned m' { r with half := false } a)) ∧
    (∀ t x2 i m m16, t.longRef false (t.returnIndex x2) i m false m16 = .ok (r, s) →
      (∃ a m' n, exec (.adfrL x2 i m m16) t = .next { w with
        regA := a, mem := m', oar := r.addr, pc := s.pc + 2, draws := n } ∧
      rounds32 s.zero32 (fval32 s.regA + fval32 (u.mem.word r.addr)) a ∧ w.returned m' { r with half := false } a)) ∧
    (∀ m7, s.shortReturnRef m7 = r →
      (∃ a m' n, exec (.sbfrS m7) s = .next { w with
        regA := a, mem := m', oar := r.addr, pc := s.pc + 1, draws := n } ∧
      rounds32 s.zero32 (fval32 s.regA - fval32 (u.mem.word r.addr)) a ∧ w.returned m' { r with half := false } a)) ∧
    (∀ t x2 i m m16, t.longRef false (t.returnIndex x2) i m false m16 = .ok (r, s) →
      (∃ a m' n, exec (.sbfrL x2 i m m16) t = .next { w with
        regA := a, mem := m', oar := r.addr, pc := s.pc + 2, draws := n } ∧
      rounds32 s.zero32 (fval32 s.regA - fval32 (u.mem.word r.addr)) a ∧ w.returned m' { r with half := false } a)) ∧
    (∀ m7, s.shortReturnRef m7 = r →
      (∃ (d : BitVec 64) (m' : Memory) (n : Nat), exec (.mlfrS m7) s = .next { w with
        regA := d.extractLsb' 32 32, regB := d.extractLsb' 0 32, mem := m', oar := r.addr, pc := s.pc + 1, draws := n } ∧
      rounds64 s.zero56 (fvalNormal32 s.regA * fvalNormal32 (u.mem.word r.addr)) d ∧
      (inRange64 (fvalNormal32 s.regA * fvalNormal32 (u.mem.word r.addr)) →
        fval64 d = fvalNormal32 s.regA * fvalNormal32 (u.mem.word r.addr) ∧ d.getLsbD 8 = false) ∧ w.returned m' { r with half := false } (d.extractLsb' 32 32))) ∧
    (∀ t x2 i m h m16, t.longRef false (t.returnIndex x2) i m h m16 = .ok (r, s) →
      (∃ (d : BitVec 64) (m' : Memory) (n : Nat), exec (.mlfrL x2 i m h m16) t = .next { w with
        regA := d.extractLsb' 32 32, regB := d.extractLsb' 0 32, mem := m', oar := r.addr, pc := s.pc + 2, draws := n } ∧
      rounds64 s.zero56 (fvalNormal32 s.regA * fvalNormal32 (u.mem.word r.addr)) d ∧
      (inRange64 (fvalNormal32 s.regA * fvalNormal32 (u.mem.word r.addr)) →
        fval64 d = fvalNormal32 s.regA * fvalNormal32 (u.mem.word r.addr) ∧ d.getLsbD 8 = false) ∧ w.returned m' { r with half := false } (d.extractLsb' 32 32))) ∧
    (∀ m7, s.shortReturnRef m7 = r →
      (∃ d b m' n, exec (.dvfrS m7) s = .next { w with
        regA := d, regB := b, mem := m', oar := r.addr, pc := s.pc + 1, draws := n } ∧
      (normalized32 (u.mem.word r.addr) = true →
        rounds32 s.zero32 ((if normalized32 s.regA then fval64 (s.regA ++ s.regB) else 0) / fval32 (u.mem.word r.addr)) d) ∧ w.returned m' { r with half := false } d)) ∧
    (∀ t x2 i m h m16, t.longRef false (t.returnIndex x2) i m h m16 = .ok (r, s) →
      (∃ d b m' n, exec (.dvfrL x2 i m h m16) t = .next { w with
        regA := d, regB := b, mem := m', oar := r.addr, pc := s.pc + 2, draws := n } ∧
      (normalized32 (u.mem.word r.addr) = true →
        rounds32 s.zero32 ((if normalized32 s.regA then fval64 (s.regA ++ s.regB) else 0) / fval32 (u.mem.word r.addr)) d) ∧ w.returned m' { r with half := false } d)) ∧
    (s.readable32 (r.addr + 2) = true → let u2 := u.ioTurn
    let w2 := u2.returnTurn { r with half := false }
    (∀ m7, s.shortReturnRef m7 = r →
      (∃ (d : BitVec 64) (m' : Memory) (n : Nat), exec (.afdrS m7) s = .next { w2 with
        regA := d.extractLsb' 32 32, regB := d.extractLsb' 0 32, mem := m', oar := r.addr, pc := s.pc + 1, draws := n } ∧
      rounds64 s.zero56 (fval64 (s.regA ++ s.regB) + fval64 (u.mem.word r.addr ++ u2.mem.word (r.addr + 2))) d ∧ w2.returned m' { r with half := false } (d.extractLsb' 32 32))) ∧
    (∀ t x2 i m m16, t.longRef false (t.returnIndex x2) i m false m16 = .ok (r, s) →
      (∃ (d : BitVec 64) (m' : Memory) (n : Nat), exec (.afdrL x2 i m m16) t = .next { w2 with
        regA := d.extractLsb' 32 32, regB := d.extractLsb' 0 32, mem := m', oar := r.addr, pc := s.pc + 2, draws := n } ∧
      rounds64 s.zero56 (fval64 (s.regA ++ s.regB) + fval64 (u.mem.word r.addr ++ u2.mem.word (r.addr + 2))) d ∧ w2.returned m' { r with half := false } (d.extractLsb' 32 32))) ∧
    (∀ m7, s.shortReturnRef m7 = r →
      (∃ (d : BitVec 64) (m' : Memory) (n : Nat), exec (.sfdrS m7) s = .next { w2 with
        regA := d.extractLsb' 32 32, regB := d.extractLsb' 0 32, mem := m', oar := r.addr, pc := s.pc + 1, draws := n } ∧
      rounds64 s.zero56 (fval64 (s.regA ++ s.regB) - fval64 (u.mem.word r.addr ++ u2.mem.word (r.addr + 2))) d ∧ w2.returned m' { r with half := false } (d.extractLsb' 32 32))) ∧
    (∀ t x2 i m m16, t.longRef false (t.returnIndex x2) i m false m16 = .ok (r, s) →
      (∃ (d : BitVec 64) (m' : Memory) (n : Nat), exec (.sfdrL x2 i m m16) t = .next { w2 with
        regA := d.extractLsb' 32 32, regB := d.extractLsb' 0 32, mem := m', oar := r.addr, pc := s.pc + 2, draws := n } ∧
      rounds64 s.zero56 (fval64 (s.regA ++ s.regB) - fval64 (u.mem.word r.addr ++ u2.mem.word (r.addr + 2))) d ∧ w2.returned m' { r with half := false } (d.extractLsb' 32 32))))

/-- O41. AND, LOR and EXO combine A with the operand bit by bit; a PTR word executes as the AND it encodes (R117, R300, R301, R302, R303, R305, R309). That OAR receives the effective address is the model's choice (log 15). Between accesses only the I/O unit acts (AccessesAreTurns). That PTR with X1 = 7 is ANDR is the model's choice: it reads "the long AND it encodes" of R309 with R117 and R302 (log 24, DEDUCED). -/
def Obligations.LogicalComplete : Prop :=
  (∀ (s u : State) (r : Ref) (v : Word32), s.operand r = .ok (v, u) →
    (∀ x1 m7, s.shortRef x1 m7 = r →
      exec (.andS x1 m7) s = .next { u with regA := s.regA &&& v, oar := r.addr, pc := s.pc + 1 } ∧
      exec (.lorS x1 m7) s = .next { u with regA := s.regA ||| v, oar := r.addr, pc := s.pc + 1 } ∧
      exec (.exoS x1 m7) s = .next { u with regA := s.regA ^^^ v, oar := r.addr, pc := s.pc + 1 }) ∧
    (∀ t x1 x2 i m h m16, t.longRef true (t.longIndex x1 x2) i m h m16 = .ok (r, s) → r.half = false →
      exec (.andL x1 x2 i m h m16) t = .next { u with regA := s.regA &&& v, oar := r.addr, pc := s.pc + 2 } ∧
      exec (.lorL x1 x2 i m h m16) t = .next { u with regA := s.regA ||| v, oar := r.addr, pc := s.pc + 2 } ∧
      exec (.exoL x1 x2 i m h m16) t = .next { u with regA := s.regA ^^^ v, oar := r.addr, pc := s.pc + 2 }) ∧
    (∀ t x1 x2 i m m16, x1 ≠ 7 → t.longRef true (t.longIndex x1 x2) i m false m16 = .ok (r, s) → r.half = false →
      exec (.ptr x1 x2 i m m16) t = .next { u with regA := s.regA &&& v, oar := r.addr, pc := s.pc + 2 })) ∧
  (∀ (s : State) (x2 : BitVec 4) (i m : Bool) (m16 : BitVec 16),
    exec (.ptr 7 x2 i m m16) s = exec (.andrL x2 i m false m16) s)

/-- O42. ANDR, LORR and EXOR store the result in the Fast Scratchpad and keep A (R202, R302, R304, R306). That OAR receives the effective address is the model's choice (log 15). Between accesses only the I/O unit acts (AccessesAreTurns). What irHeld notes in the turn of a store is the model's reading of R82 (log 14, DEDUCED). -/
def Obligations.LogicalReturns : Prop :=
  ∀ (s u : State) (r : Ref) (v : Word32), s.mem.wf = true → s.operand r = .ok (v, u) → r.imm = false →
    s.inFast r.addr = true → s.writable r = true → let w := u.storeTurn r.half r.addr
    (∀ m7, s.shortReturnRef m7 = r →
      (∃ m', exec (.andrS m7) s = .next { w with mem := m', oar := r.addr, pc := s.pc + 1 } ∧
        stored w.mem m' r (s.regA &&& v)) ∧
      (∃ m', exec (.lorrS m7) s = .next { w with mem := m', oar := r.addr, pc := s.pc + 1 } ∧
        stored w.mem m' r (s.regA ||| v)) ∧
      (∃ m', exec (.exorS m7) s = .next { w with mem := m', oar := r.addr, pc := s.pc + 1 } ∧
        stored w.mem m' r (s.regA ^^^ v))) ∧
    (∀ t x2 i m h m16, t.longRef true (t.returnIndex x2) i m h m16 = .ok (r, s) → r.half = false →
      (∃ m', exec (.andrL x2 i m h m16) t = .next { w with mem := m', oar := r.addr, pc := s.pc + 2 } ∧
        stored w.mem m' r (s.regA &&& v)) ∧
      (∃ m', exec (.lorrL x2 i m h m16) t = .next { w with mem := m', oar := r.addr, pc := s.pc + 2 } ∧
        stored w.mem m' r (s.regA ||| v)) ∧
      (∃ m', exec (.exorL x2 i m h m16) t = .next { w with mem := m', oar := r.addr, pc := s.pc + 2 } ∧
        stored w.mem m' r (s.regA ^^^ v)))

/-- O43. RTA loads pc from bits 14..31 of a fullword and completes the level whose return location it names (R307, R463, R475). That OAR receives the effective address is the model's choice (log 15). Between accesses only the I/O unit acts (AccessesAreTurns). -/
def Obligations.ReturnAddressCompletes : Prop :=
  ∀ (s : State) (r : Ref), s.readable32 r.addr = true → let u := s.ioTurn
    (∀ x1 m7, s.shortRef x1 m7 = r → ∃ v, exec (.rtaS x1 m7) s = .next { u with
        oar := r.addr, pc := (u.mem.word r.addr).extractLsb' 0 18, inService := v } ∧
      ∀ l : Fin 16, v.getLsbD l = (s.inService.getLsbD l && decide (s.cfg.returnAt.get l ≠ r.addr))) ∧
    (∀ t x1 x2 i m h m16, t.longRef true (t.longIndex x1 x2) i m h m16 = .ok (r, s) → r.imm = false → r.half = false →
      ∃ v, exec (.rtaL x1 x2 i m h m16) t = .next { u with
        oar := r.addr, pc := (u.mem.word r.addr).extractLsb' 0 18, inService := v } ∧
      ∀ l : Fin 16, v.getLsbD l = (s.inService.getLsbD l && decide (s.cfg.returnAt.get l ≠ r.addr)))

/-- O44. Every shift is its one place shift repeated E times, E = (index + J) mod 256 (R331, R332, R333, R334, R335, R336, R337, R338). -/
def Obligations.ShiftsAreOnePlaceRepeated : Prop :=
  ∀ (s : State) (x1 : BitVec 3) (j : BitVec 5),
    let n := ((if x1 = 0 then 0 else (s.xr (x1.zeroExtend 4)).toNat) + j.toNat) % 256
    decode (halfBytes (0b00001#5 ++ 0b0#1 ++ x1 ++ 0b00#2 ++ j)) = .ok (.slld x1 j, []) ∧
    (let d := (fun v : BitVec 64 => v <<< 1)^[n] (s.regA ++ s.regB)
     exec (.slld x1 j) s = .next { s with regA := d.extractLsb' 32 32, regB := d.extractLsb' 0 32, pc := s.pc + 1 }) ∧
    decode (halfBytes (0b00001#5 ++ 0b0#1 ++ x1 ++ 0b01#2 ++ j)) = .ok (.slcd x1 j, []) ∧
    (let d := (fun v : BitVec 64 => v.rotateLeft 1)^[n] (s.regA ++ s.regB)
     exec (.slcd x1 j) s = .next { s with regA := d.extractLsb' 32 32, regB := d.extractLsb' 0 32, pc := s.pc + 1 }) ∧
    decode (halfBytes (0b00001#5 ++ 0b0#1 ++ x1 ++ 0b10#2 ++ j)) = .ok (.sll x1 j, []) ∧
    exec (.sll x1 j) s = .next { s with regA := (fun v : BitVec 32 => v <<< 1)^[n] s.regA, pc := s.pc + 1 } ∧
    decode (halfBytes (0b00001#5 ++ 0b0#1 ++ x1 ++ 0b11#2 ++ j)) = .ok (.srld x1 j, []) ∧
    (let d := (fun v : BitVec 64 => v >>> 1)^[n] (s.regA ++ s.regB)
     exec (.srld x1 j) s = .next { s with regA := d.extractLsb' 32 32, regB := d.extractLsb' 0 32, pc := s.pc + 1 }) ∧
    decode (halfBytes (0b00001#5 ++ 0b1#1 ++ x1 ++ 0b00#2 ++ j)) = .ok (.srad x1 j, []) ∧
    (let d := (fun v : BitVec 64 => v.sshiftRight 1)^[n] (s.regA ++ s.regB)
     exec (.srad x1 j) s = .next { s with regA := d.extractLsb' 32 32, regB := d.extractLsb' 0 32, pc := s.pc + 1 }) ∧
    decode (halfBytes (0b00001#5 ++ 0b1#1 ++ x1 ++ 0b01#2 ++ j)) = .ok (.srcd x1 j, []) ∧
    (let d := (fun v : BitVec 64 => v.rotateRight 1)^[n] (s.regA ++ s.regB)
     exec (.srcd x1 j) s = .next { s with regA := d.extractLsb' 32 32, regB := d.extractLsb' 0 32, pc := s.pc + 1 }) ∧
    decode (halfBytes (0b00001#5 ++ 0b1#1 ++ x1 ++ 0b10#2 ++ j)) = .ok (.sra x1 j, []) ∧
    exec (.sra x1 j) s = .next { s with regA := (fun v : BitVec 32 => v.sshiftRight 1)^[n] s.regA, pc := s.pc + 1 } ∧
    decode (halfBytes (0b00001#5 ++ 0b1#1 ++ x1 ++ 0b11#2 ++ j)) = .ok (.src x1 j, []) ∧
    exec (.src x1 j) s = .next { s with regA := (fun v : BitVec 32 => v.rotateRight 1)^[n] s.regA, pc := s.pc + 1 }

/-- O45. SAM, ICN and ICL skip two more halfwords exactly when their condition holds; no register changes (R300, R308, R350, R351, R352, R355). That OAR receives the effective address is the model's choice (log 15). Between accesses only the I/O unit acts (AccessesAreTurns). -/
def Obligations.SkipsComplete : Prop :=
  (∀ (s u : State) (r : Ref) (v : Word32), s.operand r = .ok (v, u) →
    (∀ x1 m7, s.shortRef x1 m7 = r → exec (.samS x1 m7) s = .next { u with
      oar := r.addr, pc := s.pc + (if s.regA &&& v = 0#32 then 1 else 3) }) ∧
    (∀ t x1 x2 i m h m16, t.longRef true (t.longIndex x1 x2) i m h m16 = .ok (r, s) → r.half = false →
      exec (.samL x1 x2 i m h m16) t = .next { u with
        oar := r.addr, pc := s.pc + (if s.regA &&& v = 0#32 then 2 else 4) })) ∧
  (∀ (s u : State) (v : Addr) (x1 : BitVec 3) (m7 : BitVec 7), s.indexOperand (s.shortObjectRef m7) = .ok (v, u) →
    exec (.icnS x1 m7) s = .next { u with
      oar := (s.shortObjectRef m7).addr, pc := s.pc + (if s.xr (x1.zeroExtend 4) = v then 1 else 3) }) ∧
  (∀ (s t u : State) (r : Ref) (v : Addr) (x1 : BitVec 3) (x2 : BitVec 4) (i m : Bool) (m16 : BitVec 16),
    t.longRef false (t.idx1 x1) i m false m16 = .ok (r, s) → s.indexOperand r = .ok (v, u) →
    exec (.icnL x1 x2 i m m16) t = .next { u with oar := r.addr, pc := s.pc + (if s.xr x2 = v then 2 else 4) } ∧
    exec (.iclL x1 x2 i m m16) t = .next { u with
      oar := r.addr, pc := s.pc + (if (if s.cfg.iclSigned then (s.xr x2).toInt < v.toInt
        else (s.xr x2).toNat < v.toNat) then 4 else 2) })

/-- O46. IMN subtracts and IMP adds the 18 bit operand, to the object register alone (R350, R353, R354, R355). That OAR receives the effective address is the model's choice (log 15). Between accesses only the I/O unit acts (AccessesAreTurns). -/
def Obligations.IndexModifiesComplete : Prop :=
  (∀ (s u : State) (v : Addr) (x1 : BitVec 3) (m7 : BitVec 7), s.indexOperand (s.shortObjectRef m7) = .ok (v, u) →
    exec (.imnS x1 m7) s = .next { u.setXr (x1.zeroExtend 4) (s.xr (x1.zeroExtend 4) - v) with
      oar := (s.shortObjectRef m7).addr, pc := s.pc + 1 }) ∧
  (∀ (s t u : State) (r : Ref) (v : Addr) (x1 : BitVec 3) (x2 : BitVec 4) (i m : Bool) (m16 : BitVec 16),
    t.longRef false (t.idx1 x1) i m false m16 = .ok (r, s) → s.indexOperand r = .ok (v, u) →
    exec (.imnL x1 x2 i m m16) t = .next { u.setXr x2 (s.xr x2 - v) with oar := r.addr, pc := s.pc + 2 } ∧
    exec (.impL x1 x2 i m m16) t = .next { u.setXr x2 (s.xr x2 + v) with oar := r.addr, pc := s.pc + 2 })

/-- O47. Jumps on A: the short ones move pc by M7 from the jump itself, the long ones go to M18, when their condition holds (R371, R372, R373, R374, R375, R376, R377, R378). -/
def Obligations.JumpsOnACompletes : Prop :=
  ∀ (s : State) (p : Bool) (m7 : BitVec 7) (m18 : BitVec 18),
    let t : Addr := if p then s.pc - m7.zeroExtend 18 else s.pc + m7.zeroExtend 18
    decode (halfBytes (0b01100#5 ++ 0b0#1 ++ 0b00#2 ++ BitVec.ofBool p ++ m7)) = .ok (.jru p m7, []) ∧
    exec (.jru p m7) s = .next { s with pc := t } ∧
    decode (halfBytes (0b01100#5 ++ 0b0#1 ++ 0b01#2 ++ BitVec.ofBool p ++ m7)) = .ok (.jrn p m7, []) ∧
    exec (.jrn p m7) s = .next { s with pc := if s.regA ≠ 0 then t else s.pc + 1 } ∧
    decode (halfBytes (0b01100#5 ++ 0b0#1 ++ 0b10#2 ++ BitVec.ofBool p ++ m7)) = .ok (.jrg p m7, []) ∧
    exec (.jrg p m7) s = .next { s with pc := if 0 ≤ s.regA.toInt then t else s.pc + 1 } ∧
    decode (halfBytes (0b01100#5 ++ 0b0#1 ++ 0b11#2 ++ BitVec.ofBool p ++ m7)) = .ok (.jrl p m7, []) ∧
    exec (.jrl p m7) s = .next { s with pc := if s.regA.toInt < 0 then t else s.pc + 1 } ∧
    decode (Code.long (0b01100#5 ++ 0b1#1 ++ 0b0000#4 ++ 0b1100#4 ++ m18)).bytes = .ok (.jgu m18, []) ∧
    exec (.jgu m18) s = .next { s with pc := m18 } ∧
    decode (Code.long (0b01100#5 ++ 0b1#1 ++ 0b0100#4 ++ 0b1000#4 ++ m18)).bytes = .ok (.jan m18, []) ∧
    exec (.jan m18) s = .next { s with pc := if s.regA ≠ 0 then m18 else s.pc + 2 } ∧
    decode (Code.long (0b01100#5 ++ 0b1#1 ++ 0b1000#4 ++ 0b1000#4 ++ m18)).bytes = .ok (.jag m18, []) ∧
    exec (.jag m18) s = .next { s with pc := if 0 ≤ s.regA.toInt then m18 else s.pc + 2 } ∧
    decode (Code.long (0b01100#5 ++ 0b1#1 ++ 0b1100#4 ++ 0b1000#4 ++ m18)).bytes = .ok (.jal m18, []) ∧
    exec (.jal m18) s = .next { s with pc := if s.regA.toInt < 0 then m18 else s.pc + 2 }

/-- O48. JGF jumps on any selected program flag, JGS on one status bit, JGW on one switch (R379, R380, R381, 92_eei_decisions.md D19). -/
def Obligations.StatusJumpsComplete : Prop :=
  ∀ (s : State) (m18 : BitVec 18),
    (∀ f : BitVec 4, exec (.jgf f m18) s = .next { s with
      pc := if (f.getLsbD 3 && s.srBit 11) || (f.getLsbD 2 && s.srBit 10) || (f.getLsbD 1 && s.srBit 9) ||
        (f.getLsbD 0 && s.srBit 8) then m18 else s.pc + 2 }) ∧
    (∀ n : BitVec 4, exec (.jgs n m18) s = .next { s with pc := if s.srBit n.toNat then m18 else s.pc + 2 }) ∧
    (∀ sw : BitVec 2, exec (.jgw sw m18) s = .next { s with
      pc := if s.switches.getLsbD sw.toNat then m18 else s.pc + 2 })

/-- O49. JS stores pc + 2 where the pointer at the subroutine's head says and goes to the effective address + 2 (R119, R382, R383). That OAR receives the effective address is the model's choice (log 15). `draws` counts the model's free values (log 9). Between accesses only the I/O unit acts (AccessesAreTurns). What irHeld notes in the turn of a store is the model's reading of R82 (log 14, DEDUCED). -/
def Obligations.SubroutineJumpCompletes : Prop :=
  ∀ (s t : State) (x1 : BitVec 3) (m18 : BitVec 18), let ea := m18 + (if x1 = 0 then 0 else s.xr (x1.zeroExtend 4))
    (isOdd ea = true → exec (.js x1 m18) s = .fault .misaligned) ∧
    (∀ vs w, isOdd ea = false → s.pointers false ea vs w t → let u := t.storeTurn false (s.pointerAddr w)
      (vs.length + 1 ≤ 16 → w.getLsbD 17 = false → s.mem.wf = true → s.writable32 (s.pointerAddr w) = true →
        ∃ m' v n, exec (.js x1 m18) s = .next { u with mem := m', oar := ea, pc := ea + 2, draws := n } ∧
          storedWord u.mem m' (s.pointerAddr w) v ∧ v.extractLsb' 0 18 = s.pc + 2) ∧
      (vs.length + 1 ≤ 16 → w.getLsbD 17 = true → exec (.js x1 m18) s = .fault .immediateOnStore)) ∧
    (∀ vs e, isOdd ea = false → s.leads false ea vs e t → vs.length = 16 →
      exec (.js x1 m18) s = .fault .tooManyLevels)

/-- O50. NOP, EMI, DPI, DMI, EPI, EAB, SHM and RHM change exactly the bit or the registers their rules name (R402, R403, R404, R405, R406, R412, R413, R414). -/
def Obligations.EnablesModesAndExchange : Prop :=
  ∀ s : State,
    (∀ x : BitVec 7, decode (halfBytes (0b00000#5 ++ 0b1110#4 ++ x)) = .ok (.nop, [])) ∧
    exec .nop s = .next { s with pc := s.pc + 1 } ∧
    (∀ x : BitVec 7, decode (halfBytes (0b00000#5 ++ 0b0001#4 ++ x)) = .ok (.emi, [])) ∧
    exec .emi s = .next { s with sr := s.sr ||| 0x4000#16, pc := s.pc + 1 } ∧
    (∀ x : BitVec 7, decode (halfBytes (0b00000#5 ++ 0b0010#4 ++ x)) = .ok (.dpi, [])) ∧
    exec .dpi s = .next { s with sr := s.sr &&& 0x7FFF#16, pc := s.pc + 1 } ∧
    (∀ x : BitVec 7, decode (halfBytes (0b00000#5 ++ 0b0011#4 ++ x)) = .ok (.dmi, [])) ∧
    exec .dmi s = .next { s with sr := s.sr &&& 0xBFFF#16, pc := s.pc + 1 } ∧
    (∀ x : BitVec 7, decode (halfBytes (0b00000#5 ++ 0b0100#4 ++ x)) = .ok (.epi, [])) ∧
    exec .epi s = .next { s with sr := s.sr ||| 0x8000#16, pc := s.pc + 1 } ∧
    (∀ x : BitVec 7, decode (halfBytes (0b00000#5 ++ 0b1010#4 ++ x)) = .ok (.eab, [])) ∧
    exec .eab s = .next { s with regA := s.regB, regB := s.regA, pc := s.pc + 1 } ∧
    (∀ x : BitVec 7, decode (halfBytes (0b00000#5 ++ 0b1011#4 ++ x)) = .ok (.shm, [])) ∧
    exec .shm s = .next { s with sr := s.sr ||| 0x0020#16, pc := s.pc + 1 } ∧
    (∀ x : BitVec 7, decode (halfBytes (0b00000#5 ++ 0b1100#4 ++ x)) = .ok (.rhm, [])) ∧
    exec .rhm s = .next { s with sr := s.sr &&& 0xFFDF#16, pc := s.pc + 1 }

/-- O51. SET and RST set and clear the selected program flags, HLT halts only with the test signal, LXA loads 18 bits of A (R407, R408, R409, R415). -/
def Obligations.FlagsHaltAndIndexFromA : Prop :=
  ∀ s : State,
    (∀ f : BitVec 4, ∃ v, exec (.setf f) s = .next { s with sr := v, pc := s.pc + 1 } ∧
      ∀ n, n < 16 → v.getLsbD n = (s.sr.getLsbD n || (decide (8 ≤ n) && f.getLsbD (n - 8)))) ∧
    (∀ f : BitVec 4, ∃ v, exec (.rstf f) s = .next { s with sr := v, pc := s.pc + 1 } ∧
      ∀ n, n < 16 → v.getLsbD n = (s.sr.getLsbD n && !(decide (8 ≤ n) && f.getLsbD (n - 8)))) ∧
    (s.testSignal = true → exec .hlt s = .next { s with halted := true, pc := s.pc + 1 }) ∧
    (s.testSignal = false → exec .hlt s = .next { s with pc := s.pc + 1 }) ∧
    (∀ f : BitVec 4, f ≠ 0 →
      exec (.lxa f) s = .next { s.setXr f (s.regA.extractLsb' 0 18) with pc := s.pc + 1 })

/-- O52. CFX gives the floor or the ceiling of the value times 2^32; CXF gives a normalized neighbour of the fixed point value (R410, R411, 92_eei_decisions.md D31). `draws` counts the model's free values (log 9). Outside its range CFX goes on with free values (log 13). -/
def Obligations.ConversionsComplete : Prop :=
  ∀ s : State,
    (∃ (d : BitVec 64) (n : Nat), exec .cfx s = .next { s with
        regA := d.extractLsb' 32 32, regB := d.extractLsb' 0 32, pc := s.pc + 1, draws := n } ∧
      (normalized64 (s.regA ++ s.regB) = true → s.cfg.cfxMin < |fval64 (s.regA ++ s.regB)| →
        |fval64 (s.regA ++ s.regB)| < 2 ^ 31 →
        d.toInt = ⌊fval64 (s.regA ++ s.regB) * 2 ^ 32⌋ ∨ d.toInt = ⌈fval64 (s.regA ++ s.regB) * 2 ^ 32⌉)) ∧
    (∃ (d : BitVec 64) (n : Nat), exec .cxf s = .next { s with
        regA := d.extractLsb' 32 32, regB := d.extractLsb' 0 32, pc := s.pc + 1, draws := n } ∧
      rounds64 s.zero56 ((s.regA ++ s.regB).toInt / 2 ^ 32) d)

/-- O53. DOA, DIA, DOM and DIM transfer one word each, once, and serve the control panel request (R431, R432, R433, R434, R435, R436, R437, R483). That OAR receives the effective address is the model's choice (log 15). `draws` counts the model's free values (log 9). Between accesses only the I/O unit acts (AccessesAreTurns). busIn and ioLog are the model's form of DevIn and DevOut (log 18). What irHeld notes in the turn of a store is the model's reading of R82 (log 14, DEDUCED). -/
def Obligations.InputOutputCompletes : Prop :=
  ∀ (s : State) (c k i : Bool) (dc : BitVec 6) (m16 : BitVec 16),
    exec (.doa c dc k) s = .next { s with
      ioLog := s.ioLog ++ [.out dc c k s.regA], pending := s.pendingAfter dc, pc := s.pc + 1 } ∧
    (∃ w n, exec (.dia c dc k) s = .next { s with
        regA := w, busIn := s.busIn.tail, ioLog := s.ioLog ++ [.inp dc c k w], pending := s.pendingAfter dc, pc := s.pc + 1, draws := n } ∧
      ∀ v vs, s.busIn = v :: vs → w = v) ∧
    (∀ (t : State) (r : Ref), t.longRef false 0 i false false m16 = .ok (r, s) → r.imm = false → let u := s.ioTurn
      (s.readable32 r.addr = true → exec (.dom c dc i k m16) t = .next { u with
        oar := r.addr, ioLog := s.ioLog ++ [.out dc c k (u.mem.word r.addr)], pending := s.pendingAfter dc,
        pc := s.pc + 2 }) ∧
      (s.mem.wf = true → s.writable32 r.addr = true → ∃ m' w n, exec (.dim c dc i k m16) t = .next { s.storeTurn false r.addr with
          mem := m', oar := r.addr, busIn := s.busIn.tail, ioLog := s.ioLog ++ [.inp dc c k w],
          pending := s.pendingAfter dc, pc := s.pc + 2, draws := n } ∧
        storedWord u.mem m' r.addr w ∧ ∀ v vs, s.busIn = v :: vs → w = v)) ∧
    (∀ (t : State) (r : Ref), t.longRef false 0 i false false m16 = .ok (r, s) → r.imm = true →
      exec (.dom c dc i k m16) t = .fault .immediateOnIo ∧ exec (.dim c dc i k m16) t = .fault .immediateOnIo)

/-- O54. Undisturbed, MMF and MFM move N masked fullwords and leave B and XR0 up by 2N (R450, R451, R452, R453, R454). What irHeld notes is the model's reading of R82 (log 14). -/
def Obligations.BlockTransfersComplete : Prop :=
  ∀ (s : State) (x1 : BitVec 3) (j : BitVec 7),
    let n := (if x1 = 0 then 0 else (s.xr (x1.zeroExtend 4)).toNat) + j.toNat
    let c : Addr := s.regB.extractLsb' 0 18
    let f : Addr := s.xr 0
    s.mem.wf = true → s.ioWrites = [] →
    isOdd c = false → isOdd f = false → c.toNat + 2 * n + 1 < 2 ^ 18 → f.toNat + 2 * n + 1 < 2 ^ 18 →
    (c.toNat + 2 * n < f.toNat + 2 ∨ f.toNat + 2 * n < c.toNat + 2) →
    (∀ k, k < n → s.inFast (f + BitVec.ofNat 18 (2 * (k + 1))) = true ∧
      s.readable32 (f + BitVec.ofNat 18 (2 * (k + 1))) = true ∧
      s.readable32 (c + BitVec.ofNat 18 (2 * (k + 1))) = true) →
    ((∀ k, k < n → s.writable32 (f + BitVec.ofNat 18 (2 * (k + 1))) = true) →
        ∃ m' l, exec (.mmf x1 j) s = .next { s.setXr 0 (s.xr 0 + BitVec.ofNat 18 (2 * n)) with
            mem := m', steals := l,
            irHeld := s.irHeld.map fun h => if ∃ k, k < n ∧ h.addr = f + BitVec.ofNat 18 (2 * (k + 1)) + 1 then
              ⟨h.addr, h.past ++ [s.mem.half h.addr]⟩ else h,
            regB := s.regB + BitVec.ofNat 32 (2 * n), pc := s.pc + 1 } ∧
        (∀ k, k < n → m'.word (f + BitVec.ofNat 18 (2 * (k + 1))) =
          s.mem.word (c + BitVec.ofNat 18 (2 * (k + 1))) &&& s.regA) ∧
        sameOutside s.mem m' (2 * (f.toNat + 2)) (4 * n)) ∧
    ((∀ k, k < n → s.writable32 (c + BitVec.ofNat 18 (2 * (k + 1))) = true) →
        ∃ m' l, exec (.mfm x1 j) s = .next { s.setXr 0 (s.xr 0 + BitVec.ofNat 18 (2 * n)) with
            mem := m', steals := l,
            irHeld := s.irHeld.map fun h => if ∃ k, k < n ∧ h.addr = c + BitVec.ofNat 18 (2 * (k + 1)) + 1 then
              ⟨h.addr, h.past ++ [s.mem.half h.addr]⟩ else h,
            regB := s.regB + BitVec.ofNat 32 (2 * n), pc := s.pc + 1 } ∧
        (∀ k, k < n → m'.word (c + BitVec.ofNat 18 (2 * (k + 1))) =
          s.mem.word (f + BitVec.ofNat 18 (2 * (k + 1))) &&& s.regA) ∧
        sameOutside s.mem m' (2 * (c.toNat + 2)) (4 * n))

/-- O55. MMF and MFM move word by word in ascending order, ranges that overlap included, and stop at the first word that cannot move (R68, R450, R451, R452, R453, R454). -/
def Obligations.BlockTransfersWordByWord : Prop :=
  ∀ (s : State) (x1 : BitVec 3) (j : BitVec 7),
    let n := (if x1 = 0 then 0 else (s.xr (x1.zeroExtend 4)).toNat) + j.toNat
    let c : Addr := s.regB.extractLsb' 0 18
    let f : Addr := s.xr 0
    (∀ t, s.moves true c f n t → exec (.mmf x1 j) s = .next { t.setXr 0 (s.xr 0 + BitVec.ofNat 18 (2 * n)) with
      regB := s.regB + BitVec.ofNat 32 (2 * n), pc := s.pc + 1 }) ∧
    (∀ k t, k < n → s.moves true c f k t →
      let c1 := c + BitVec.ofNat 18 (2 * (k + 1))
      let f1 := f + BitVec.ofNat 18 (2 * (k + 1))
      (t.inFast f1 = false → exec (.mmf x1 j) s = .fault .blockOutsideFast) ∧
      (t.inFast f1 = true → isOdd c1 = true → exec (.mmf x1 j) s = .fault .misaligned) ∧
      (t.inFast f1 = true → t.readable32 c1 = true → isOdd f1 = true → exec (.mmf x1 j) s = .fault .misaligned) ∧
      (∀ e, t.inFast f1 = true → t.load32 c1 = .error e → exec (.mmf x1 j) s = .fault e) ∧
      (∀ e w v, t.inFast f1 = true → t.load32 c1 = .ok (w, v) → v.store32 f1 (w &&& s.regA) = .error e →
        exec (.mmf x1 j) s = .fault e)) ∧
    (∀ t, s.moves false c f n t → exec (.mfm x1 j) s = .next { t.setXr 0 (s.xr 0 + BitVec.ofNat 18 (2 * n)) with
      regB := s.regB + BitVec.ofNat 32 (2 * n), pc := s.pc + 1 }) ∧
    (∀ k t, k < n → s.moves false c f k t →
      let c1 := c + BitVec.ofNat 18 (2 * (k + 1))
      let f1 := f + BitVec.ofNat 18 (2 * (k + 1))
      (t.inFast f1 = false → exec (.mfm x1 j) s = .fault .blockOutsideFast) ∧
      (t.inFast f1 = true → isOdd f1 = true → exec (.mfm x1 j) s = .fault .misaligned) ∧
      (t.inFast f1 = true → t.readable32 f1 = true → isOdd c1 = true → exec (.mfm x1 j) s = .fault .misaligned) ∧
      (∀ e, t.inFast f1 = true → t.load32 f1 = .error e → exec (.mfm x1 j) s = .fault e) ∧
      (∀ e w v, t.inFast f1 = true → t.load32 f1 = .ok (w, v) → v.store32 c1 (w &&& s.regA) = .error e →
        exec (.mfm x1 j) s = .fault e)) ∧
    (n = 0 → exec (.mmf x1 j) s = .next { s with pc := s.pc + 1 } ∧
      exec (.mfm x1 j) s = .next { s with pc := s.pc + 1 }) ∧
    (s.mem.wf = true → s.ioWrites = [] → f = c + 2 → f.toNat + 2 * n + 1 < 2 ^ 18 → s.readable32 (c + 2) = true →
      (∀ k, k < n → s.inFast (f + BitVec.ofNat 18 (2 * (k + 1))) = true ∧
        s.writable32 (f + BitVec.ofNat 18 (2 * (k + 1))) = true) →
      ∃ t, exec (.mmf x1 j) s = .next t ∧ ∀ k, k < n →
        t.mem.word (f + BitVec.ofNat 18 (2 * (k + 1))) = s.mem.word (c + 2) &&& s.regA)

/-- O56. Entry to a level stores pc in RETURN(L), goes to TRANSFER(L), and changes no register, flag or mask (R67, R463, R470, R471, R481). `draws` counts the model's free values (log 9). Between accesses only the I/O unit acts (AccessesAreTurns). That irHeld becomes none is the model's reading of R82 (log 14, DEDUCED). That one absent halfword of TRANSFER(L) or RETURN(L), or an odd RETURN(L), stops the entry is the model's reading of R67 and R481 (log 26, DEDUCED). That an absent TRANSFER(L) is reported before an odd RETURN(L) is the model's own order (log 26, DESIGN CHOICE). -/
def Obligations.InterruptEntry : Prop :=
  ∀ (s : State) (l : Fin 16), s.mem.wf = true →
    let transfer := s.cfg.transferAt.get l
    let back := s.cfg.returnAt.get l
    (s.cfg = Config.baseline → transfer = BitVec.ofNat 18 (32672 + 2 * l) ∧ back = BitVec.ofNat 18 (32736 + 2 * l)) ∧
    ((s.isPresent transfer = false ∨ s.isPresent (transfer + 1) = false) →
      s.enterInterrupt l = .error .nonexistentMemory) ∧
    (s.isPresent transfer = true → s.isPresent (transfer + 1) = true →
      (isOdd back = true → s.enterInterrupt l = .error .misaligned) ∧
      (isOdd back = false → (s.isPresent back = false ∨ s.isPresent (back + 1) = false) →
        s.enterInterrupt l = .error .nonexistentMemory)) ∧
    (s.isPresent transfer = true → s.isPresent (transfer + 1) = true → s.readable32 back = true →
      let u := s.ioTurn
      ∃ m' w n, s.enterInterrupt l = .ok { u with
        mem := m', pc := transfer, pending := s.pending &&& ~~~(1#16 <<< l.val),
        inService := s.inService ||| (1#16 <<< l.val), holdoff := s.cfg.intHoldoff, halted := false, irHeld := none,
        draws := n } ∧
      storedWord u.mem m' back w ∧ w.extractLsb' 0 18 = s.pc)

/-- O57. The recognition point enters the highest eligible level, and none while disabled, held off or blocked (R467, R468, R469, R472, R478). That what arrives takes effect before the recognition point, and that a halted step has one, is the model's form of R465 and R477 (log 16, 29). MRn governs level n in every configuration (log 33). -/
def Obligations.RecognitionTakesTheHighest : Prop :=
  ∀ s : State,
    (∀ l, s.holdoff ≤ 1 → s.srBit 15 = true → s.eligible l → (∀ k, l < k → ¬s.eligible k) →
      s.recognise = ({ s with holdoff := 0 } : State).enterInterrupt l) ∧
    ((2 ≤ s.holdoff ∨ s.srBit 15 = false ∨ ∀ k, ¬s.eligible k) →
      s.recognise = .ok { s with holdoff := s.holdoff - 1 }) ∧
    (let e := s.environment
     (∀ l, e.holdoff ≤ 1 → e.srBit 15 = true → e.eligible l → (∀ k, l < k → ¬e.eligible k) →
       s.conclude = ({ e with holdoff := 0 } : State).enterInterrupt l) ∧
     ((2 ≤ e.holdoff ∨ e.srBit 15 = false ∨ ∀ k, ¬e.eligible k) →
       s.conclude = .ok { e with holdoff := e.holdoff - 1 }))

/-- O58. RTA through RETURN(L) right after entry to level L resumes the interrupted program and completes the level (R469, R471, R475). -/
def Obligations.EntryThenReturn : Prop :=
  ∀ (s t : State) (l : Fin 16) (m16 : BitVec 16), s.mem.wf = true → s.cfg.returnAt.get l = m16.zeroExtend 18 →
    (∀ w ∈ s.ioWrites, w.addr ≠ s.cfg.returnAt.get l) → s.enterInterrupt l = .ok t →
    ∃ u, exec (.rtaL 0 0 false false false m16) t = .next u ∧ u.pc = s.pc ∧
      (∀ k : Fin 16, u.inService.getLsbD k =
        (s.inService.getLsbD k && decide (s.cfg.returnAt.get k ≠ s.cfg.returnAt.get l))) ∧ u.regA = s.regA ∧ u.regB = s.regB ∧ u.xrf = s.xrf ∧
      u.sr = s.sr ∧ u.mr = s.mr

/-- O59. What arrives sets the lines, latches requests of allowed levels, queues the I/O unit's writes and may release a halt (R40, R80, R381, R407, R465, R466, R467, 92_eei_decisions.md D32, 92_eei_decisions.md D42). Everything that arrives takes effect at the end of a step, the model's choice (log 16). MRn governs level n in every configuration (log 33). -/
def Obligations.ArrivalsTakeEffect : Prop :=
  ∀ (s : State) (a : Arrival), ∃ p, s.arrive a = { s with
      pending := p, switches := a.switches.getD s.switches, testSignal := a.testSignal.getD s.testSignal,
      ioDeferred := s.ioDeferred ++ a.ioWrites, halted := s.halted && !a.resume } ∧
    ∀ l, l < 16 → p.getLsbD l = (s.pending.getLsbD l ||
      (a.requests.getLsbD l && (if s.cfg.mrOneAllows then s.mr.getLsbD l else !s.mr.getLsbD l)))

/-- O60. The I/O unit's writes wait while SR14 = 0 and are made, in order, when SR14 = 1 (R36, R68, R80, R482). Between accesses only the I/O unit acts (AccessesAreTurns). That the first arrival is used up and takes effect at the end of a step is the model's choice (log 16, DESIGN CHOICE). What irHeld notes is the model's reading of R82 (log 14, DEDUCED). That the I/O unit acts before an access and at the end of a step, and that writes to odd or absent addresses are not made, is the model's form of R80 (log 17). -/
def Obligations.MemoryInterruptGate : Prop :=
  ∀ s : State,
    let made (ws : List IoWrite) : Memory :=
      ws.foldl (fun m w => if s.readable32 w.addr then m.putWord w.addr w.data else m) s.mem
    (s.srBit 14 = false → s.ioTurn = { s with
      ioDeferred := s.ioDeferred ++ s.steals.headD [], steals := s.steals.tail }) ∧
    (s.srBit 14 = true → s.ioTurn.mem = made (s.ioDeferred ++ s.steals.headD []) ∧ s.ioTurn.ioDeferred = [] ∧
      s.ioTurn.steals = s.steals.tail) ∧
    (s.arrivals = [] → s.srBit 14 = false → s.environment = s) ∧
    (s.arrivals = [] → s.srBit 14 = true → s.environment.mem = made s.ioDeferred ∧ s.environment.ioDeferred = []) ∧
    (∀ a rest, s.arrivals = a :: rest →
      s.environment.arrivals = rest ∧ s.environment.pending = (s.arrive a).pending ∧
      s.environment.switches = (s.arrive a).switches ∧ s.environment.testSignal = (s.arrive a).testSignal ∧
      s.environment.halted = (s.arrive a).halted ∧
      (s.srBit 14 = false → s.environment.mem = s.mem ∧ s.environment.ioDeferred = s.ioDeferred ++ a.ioWrites) ∧
      (s.srBit 14 = true → s.environment.mem = made (s.ioDeferred ++ a.ioWrites) ∧ s.environment.ioDeferred = [])) ∧
    (s.arrivals = [] → s.environment = { s with
      mem := s.environment.mem, irHeld := s.environment.irHeld, ioDeferred := s.environment.ioDeferred }) ∧
    (∀ a rest, s.arrivals = a :: rest → s.environment = { s.arrive a with
      arrivals := rest, mem := s.environment.mem, irHeld := s.environment.irHeld, ioDeferred := s.environment.ioDeferred }) ∧
    (∃ l, s.environment.irHeld = s.irHeld.map fun h => { h with past := h.past ++ l }) ∧
    (s.srBit 14 = false → s.environment.irHeld = s.irHeld) ∧
    (∀ w, s.readable32 w.addr = true → s.mem.wf = true → storedWord s.mem (made [w]) w.addr w.data)
end

