-- ==== Sys2Proof/Laws/Encoding.lean ====
section
/-! SUPPORT. The laws of the encoding formats: the bytes of a word give the word back, and each field of each format
stands where the decoder reads it. -/

namespace Sys2Proof

/-! ### Bytes and words -/

theorem halfBytes_join (h : Half) : h.extractLsb' 8 8 ++ h.extractLsb' 0 8 = h := by
  apply BitVec.eq_of_getLsbD_eq
  intro k hk
  rw [BitVec.getLsbD_append]
  by_cases h : k < 8
  · simp [h]
  · rw [if_neg h, BitVec.getLsbD_extractLsb', decide_eq_true (by omega), Bool.true_and]
    congr 1
    omega

theorem halves_join (w : Word32) : w.extractLsb' 16 16 ++ w.extractLsb' 0 16 = w := by
  apply BitVec.eq_of_getLsbD_eq
  intro k hk
  rw [BitVec.getLsbD_append]
  by_cases h : k < 16
  · simp [h]
  · rw [if_neg h, BitVec.getLsbD_extractLsb', decide_eq_true (by omega), Bool.true_and]
    congr 1
    omega

/-- What the decoder answers on the bytes of a short word. -/
theorem decode_short (h : Half) (rest : List Byte) (hl : isLong h = false) :
    decode (halfBytes h ++ rest) = (decodeShort h).map (fun i => (i, rest)) := by
  simp only [halfBytes, List.cons_append, List.nil_append, decode, halfBytes_join, hl]
  rfl

/-- What the decoder answers on the bytes of a long word. -/
theorem decode_long (w : Word32) (rest : List Byte) (hl : isLong (w.extractLsb' 16 16) = true) :
    decode ((Code.long w).bytes ++ rest) = (decodeLong w).map (fun i => (i, rest)) := by
  simp only [Code.bytes, halfBytes, List.cons_append, List.nil_append, decode, halfBytes_join, hl, if_true]
  rw [halves_join]

/-- The length rule on the first half of a long word, in the word's own bits (R100). -/
theorem isLong_high (w : Word32) :
    isLong (w.extractLsb' 16 16) = (w.extractLsb' 27 5 != 0b00000#5 && w.extractLsb' 27 5 != 0b00001#5 &&
      w.extractLsb' 27 5 != 0b00101#5 && w.getLsbD 26) := by
  have h : (w.extractLsb' 16 16).extractLsb' 11 5 = w.extractLsb' 27 5 := by
    apply BitVec.eq_of_getLsbD_eq
    intro k hk
    simp only [BitVec.getLsbD_extractLsb', hk, decide_true, Bool.true_and]
    rw [decide_eq_true (by omega), Bool.true_and]
    congr 1
    omega
  simp only [isLong, h, BitVec.getLsbD_extractLsb']
  rfl

/-! ### Fields of the formats -/

theorem longMem_fields (op : BitVec 5) (x1 : BitVec 3) (x2 : BitVec 4) (i m h : Bool) (m16 : BitVec 16) (w : Word32)
    (hw : w = op ++ 1#1 ++ x1 ++ x2 ++ BitVec.ofBool i ++ BitVec.ofBool m ++ BitVec.ofBool h ++ m16) :
    w.extractLsb' 27 5 = op ∧ w.getLsbD 26 = true ∧ w.extractLsb' 23 3 = x1 ∧ w.extractLsb' 19 4 = x2 ∧
      w.getLsbD 18 = i ∧ w.getLsbD 17 = m ∧ w.getLsbD 16 = h ∧ w.extractLsb' 0 16 = m16 := by
  subst hw
  refine ⟨?_, ?_, ?_, ?_, ?_, ?_, ?_, ?_⟩
  all_goals first
    | (simp only [BitVec.getLsbD_append]; simp)
    | (apply BitVec.eq_of_getLsbD_eq
       intro k hk
       simp only [BitVec.getLsbD_extractLsb', BitVec.getLsbD_append, hk, decide_true, Bool.true_and]
       interval_cases k <;> simp)

theorem shortMem_fields (op : BitVec 5) (b : BitVec 1) (x1 : BitVec 3) (m7 : BitVec 7) (h : Half)
    (hh : h = op ++ b ++ x1 ++ m7) :
    h.extractLsb' 11 5 = op ∧ h.getLsbD 10 = b.getLsbD 0 ∧ h.extractLsb' 7 3 = x1 ∧ h.extractLsb' 0 7 = m7 := by
  subst hh
  refine ⟨?_, ?_, ?_, ?_⟩
  all_goals first
    | (simp only [BitVec.getLsbD_append]; simp)
    | (apply BitVec.eq_of_getLsbD_eq
       intro k hk
       simp only [BitVec.getLsbD_extractLsb', BitVec.getLsbD_append, hk, decide_true, Bool.true_and]
       interval_cases k <;> simp)

theorem nonMemory_fields (sec : BitVec 4) (x : BitVec 7) (h : Half) (hh : h = 0#5 ++ sec ++ x) :
    h.extractLsb' 11 5 = 0#5 ∧ h.extractLsb' 7 4 = sec ∧ h.extractLsb' 0 4 = x.extractLsb' 0 4 := by
  subst hh
  refine ⟨?_, ?_, ?_⟩
  all_goals
    apply BitVec.eq_of_getLsbD_eq
    intro k hk
    simp only [BitVec.getLsbD_extractLsb', BitVec.getLsbD_append, hk, decide_true, Bool.true_and]
    interval_cases k <;> simp

theorem shift_fields (s0 : BitVec 1) (s : BitVec 2) (x1 : BitVec 3) (j : BitVec 5) (h : Half)
    (hh : h = 1#5 ++ s0 ++ x1 ++ s ++ j) :
    h.extractLsb' 11 5 = 1#5 ∧ h.getLsbD 10 = s0.getLsbD 0 ∧ h.extractLsb' 7 3 = x1 ∧ h.getLsbD 6 = s.getLsbD 1 ∧
      h.getLsbD 5 = s.getLsbD 0 ∧ h.extractLsb' 0 5 = j := by
  subst hh
  refine ⟨?_, ?_, ?_, ?_, ?_, ?_⟩
  all_goals first
    | (simp only [BitVec.getLsbD_append]; simp)
    | (apply BitVec.eq_of_getLsbD_eq
       intro k hk
       simp only [BitVec.getLsbD_extractLsb', BitVec.getLsbD_append, hk, decide_true, Bool.true_and]
       interval_cases k <;> simp)

theorem shortJump_fields (c : BitVec 2) (p : Bool) (m7 : BitVec 7) (h : Half)
    (hh : h = 12#5 ++ 0#1 ++ c ++ BitVec.ofBool p ++ m7) :
    h.extractLsb' 11 5 = 12#5 ∧ h.getLsbD 10 = false ∧ h.getLsbD 9 = c.getLsbD 1 ∧ h.getLsbD 8 = c.getLsbD 0 ∧
      h.getLsbD 7 = p ∧ h.extractLsb' 0 7 = m7 := by
  subst hh
  refine ⟨?_, ?_, ?_, ?_, ?_, ?_⟩
  all_goals first
    | (simp only [BitVec.getLsbD_append]; simp)
    | (apply BitVec.eq_of_getLsbD_eq
       intro k hk
       simp only [BitVec.getLsbD_extractLsb', BitVec.getLsbD_append, hk, decide_true, Bool.true_and]
       interval_cases k <;> simp)

theorem longJump_fields (sel sec : BitVec 4) (m18 : BitVec 18) (w : Word32)
    (hw : w = 12#5 ++ 1#1 ++ sel ++ sec ++ m18) :
    w.extractLsb' 27 5 = 12#5 ∧ w.getLsbD 26 = true ∧ w.extractLsb' 22 4 = sel ∧ w.extractLsb' 18 4 = sec ∧
      w.extractLsb' 0 18 = m18 ∧ w.extractLsb' 23 3 = sel.extractLsb' 1 3 ∧ w.extractLsb' 22 2 = sel.extractLsb' 0 2 ∧
      w.extractLsb' 24 2 = sel.extractLsb' 2 2 := by
  subst hw
  refine ⟨?_, ?_, ?_, ?_, ?_, ?_, ?_, ?_⟩
  all_goals first
    | (simp only [BitVec.getLsbD_append]; simp)
    | (apply BitVec.eq_of_getLsbD_eq
       intro k hk
       simp only [BitVec.getLsbD_extractLsb', BitVec.getLsbD_append, hk, decide_true, Bool.true_and]
       interval_cases k <;> simp)

theorem shortIo_fields (d c : Bool) (dc : BitVec 6) (k u : Bool) (h : Half)
    (hh : h = 9#5 ++ 0#1 ++ BitVec.ofBool c ++ dc ++ BitVec.ofBool u ++ BitVec.ofBool d ++ BitVec.ofBool k) :
    h.extractLsb' 11 5 = 9#5 ∧ h.getLsbD 10 = false ∧ h.getLsbD 9 = c ∧ h.extractLsb' 3 6 = dc ∧
      h.getLsbD 1 = d ∧ h.getLsbD 0 = k := by
  subst hh
  refine ⟨?_, ?_, ?_, ?_, ?_, ?_⟩
  all_goals first
    | (simp only [BitVec.getLsbD_append]; simp)
    | (apply BitVec.eq_of_getLsbD_eq
       intro k hk
       simp only [BitVec.getLsbD_extractLsb', BitVec.getLsbD_append, hk, decide_true, Bool.true_and]
       interval_cases k <;> simp)

theorem longIo_fields (d c : Bool) (dc : BitVec 6) (i k : Bool) (m16 : BitVec 16) (w : Word32)
    (hw : w = 9#5 ++ 1#1 ++ BitVec.ofBool c ++ dc ++ BitVec.ofBool i ++ BitVec.ofBool d ++ BitVec.ofBool k ++ m16) :
    w.extractLsb' 27 5 = 9#5 ∧ w.getLsbD 26 = true ∧ w.getLsbD 25 = c ∧ w.extractLsb' 19 6 = dc ∧
      w.getLsbD 18 = i ∧ w.getLsbD 17 = d ∧ w.getLsbD 16 = k ∧ w.extractLsb' 0 16 = m16 := by
  subst hw
  refine ⟨?_, ?_, ?_, ?_, ?_, ?_, ?_, ?_⟩
  all_goals first
    | (simp only [BitVec.getLsbD_append]; simp)
    | (apply BitVec.eq_of_getLsbD_eq
       intro k hk
       simp only [BitVec.getLsbD_extractLsb', BitVec.getLsbD_append, hk, decide_true, Bool.true_and]
       interval_cases k <;> simp)

/-! ### The length rule -/

/-- The length rule agrees with the width of a word (R100). -/
def Code.ruled : Code → Bool
  | .short h => !isLong h
  | .long w => isLong (w.extractLsb' 16 16)

theorem encodeLongMem_ruled (op : BitVec 5) (x1 : BitVec 3) (x2 : BitVec 4) (i m h : Bool) (m16 : BitVec 16)
    (ho : (op != 0b00000#5 && op != 0b00001#5 && op != 0b00101#5) = true) :
    (encodeLongMem op x1 x2 i m h m16).ruled = true := by
  have f := longMem_fields op x1 x2 i m h m16 _ rfl
  rw [encodeLongMem, Code.ruled, isLong_high, f.1, f.2.1, ho, Bool.and_true]

theorem encodeShortMem_ruled (op : BitVec 5) (x1 : BitVec 3) (m7 : BitVec 7) :
    (encodeShortMem op x1 m7).ruled = true := by
  have f := shortMem_fields op 0#1 x1 m7 _ rfl
  rw [encodeShortMem, Code.ruled, isLong, f.2.1]
  simp

theorem encodeNonMemory_ruled (sec f : BitVec 4) : (encodeNonMemory sec f).ruled = true := by
  have g := nonMemory_fields sec (0#3 ++ f) (0#5 ++ sec ++ 0#3 ++ f) (by
    apply BitVec.eq_of_getLsbD_eq
    intro k hk
    simp only [BitVec.getLsbD_append]
    interval_cases k <;> simp)
  rw [encodeNonMemory, Code.ruled, isLong, g.1]
  rfl

theorem encodeShift_ruled (s0 s1 s2 : Bool) (x1 : BitVec 3) (j : BitVec 5) :
    (encodeShift s0 s1 s2 x1 j).ruled = true := by
  have g := shift_fields (BitVec.ofBool s0) (BitVec.ofBool s1 ++ BitVec.ofBool s2) x1 j
    (1#5 ++ BitVec.ofBool s0 ++ x1 ++ BitVec.ofBool s1 ++ BitVec.ofBool s2 ++ j) (by
      apply BitVec.eq_of_getLsbD_eq
      intro k hk
      simp only [BitVec.getLsbD_append]
      interval_cases k <;> simp)
  rw [encodeShift, Code.ruled, isLong, g.1]
  rfl

theorem encodeBlock_ruled (sec : Bool) (x1 : BitVec 3) (j : BitVec 7) : (encodeBlock sec x1 j).ruled = true := by
  have f := shortMem_fields 5#5 (BitVec.ofBool sec) x1 j _ rfl
  rw [encodeBlock, Code.ruled, isLong, f.1]
  rfl

theorem encodeShortJump_ruled (c : BitVec 2) (p : Bool) (m7 : BitVec 7) : (encodeShortJump c p m7).ruled = true := by
  have f := shortJump_fields c p m7 _ rfl
  rw [encodeShortJump, Code.ruled, isLong, f.2.1]
  simp

theorem encodeLongJump_ruled (sel sec : BitVec 4) (m18 : BitVec 18) : (encodeLongJump sel sec m18).ruled = true := by
  have f := longJump_fields sel sec m18 _ rfl
  rw [encodeLongJump, Code.ruled, isLong_high, f.1, f.2.1]
  rfl

theorem encodeShortIo_ruled (d c : Bool) (dc : BitVec 6) (k : Bool) : (encodeShortIo d c dc k).ruled = true := by
  have f := shortIo_fields d c dc k false _ rfl
  rw [encodeShortIo, Code.ruled, isLong, show (0#1 : BitVec 1) = BitVec.ofBool false from rfl]
  rw [show (BitVec.ofBool false : BitVec 1) = 0#1 from rfl] at f ⊢
  rw [f.2.1]
  simp

theorem encodeLongIo_ruled (d c : Bool) (dc : BitVec 6) (i k : Bool) (m16 : BitVec 16) :
    (encodeLongIo d c dc i k m16).ruled = true := by
  have f := longIo_fields d c dc i k m16 _ rfl
  rw [encodeLongIo, Code.ruled, isLong_high, f.1, f.2.1]
  rfl

/-! ### Decoding a word of each format

Each lemma reduces the decoding of an encoded word to what the decoder makes of the word's fields. -/

theorem decode_shortCode (h : Half) (j : Instr) (rest : List Byte) (hl : (Code.short h).ruled = true)
    (hj : decodeShort h = .ok j) : decode ((Code.short h).bytes ++ rest) = .ok (j, rest) := by
  rw [Code.bytes, decode_short _ _ (by simpa [Code.ruled] using hl), hj]
  rfl

theorem decode_longCode (w : Word32) (j : Instr) (rest : List Byte) (hl : (Code.long w).ruled = true)
    (hj : decodeLong w = .ok j) : decode ((Code.long w).bytes ++ rest) = .ok (j, rest) := by
  rw [decode_long _ _ hl, hj]
  rfl

theorem decode_shortMem (op : BitVec 5) (x1 : BitVec 3) (m7 : BitVec 7) (j : Instr) (rest : List Byte)
    (hj : ∀ h : Half, h.extractLsb' 11 5 = op → h.extractLsb' 7 3 = x1 → h.extractLsb' 0 7 = m7 →
      h.getLsbD 10 = false → decodeShort h = .ok j) :
    decode ((encodeShortMem op x1 m7).bytes ++ rest) = .ok (j, rest) := by
  obtain ⟨f1, f2, f3, f4⟩ := shortMem_fields op 0#1 x1 m7 _ rfl
  exact decode_shortCode _ _ _ (encodeShortMem_ruled op x1 m7) (hj _ f1 f3 f4 f2)

theorem decode_longMem (op : BitVec 5) (x1 : BitVec 3) (x2 : BitVec 4) (i m h : Bool) (m16 : BitVec 16) (j : Instr)
    (rest : List Byte) (ho : (op != 0b00000#5 && op != 0b00001#5 && op != 0b00101#5) = true)
    (hj : ∀ w : Word32, w.extractLsb' 27 5 = op → w.extractLsb' 23 3 = x1 → w.extractLsb' 19 4 = x2 →
      w.getLsbD 18 = i → w.getLsbD 17 = m → w.getLsbD 16 = h → w.extractLsb' 0 16 = m16 → decodeLong w = .ok j) :
    decode ((encodeLongMem op x1 x2 i m h m16).bytes ++ rest) = .ok (j, rest) := by
  obtain ⟨f1, _, f3, f4, f5, f6, f7, f8⟩ := longMem_fields op x1 x2 i m h m16 _ rfl
  exact decode_longCode _ _ _ (encodeLongMem_ruled op x1 x2 i m h m16 ho) (hj _ f1 f3 f4 f5 f6 f7 f8)

theorem decode_nonMemoryWord (sec : BitVec 4) (x : BitVec 7) (j : Instr) (rest : List Byte)
    (hj : ∀ h : Half, h.extractLsb' 11 5 = 0#5 → h.extractLsb' 7 4 = sec → h.extractLsb' 0 4 = x.extractLsb' 0 4 →
      decodeShort h = .ok j) :
    decode (halfBytes (0#5 ++ sec ++ x) ++ rest) = .ok (j, rest) := by
  obtain ⟨f1, f2, f3⟩ := nonMemory_fields sec x _ rfl
  refine decode_shortCode _ _ _ ?_ (hj _ f1 f2 f3)
  rw [Code.ruled, isLong, f1]
  rfl

theorem decode_nonMemory (sec f : BitVec 4) (j : Instr) (rest : List Byte)
    (hj : ∀ h : Half, h.extractLsb' 11 5 = 0#5 → h.extractLsb' 7 4 = sec → h.extractLsb' 0 4 = f →
      decodeShort h = .ok j) :
    decode ((encodeNonMemory sec f).bytes ++ rest) = .ok (j, rest) := by
  have e : 0#5 ++ sec ++ 0#3 ++ f = 0#5 ++ sec ++ (0#3 ++ f) := by
    apply BitVec.eq_of_getLsbD_eq
    intro k hk
    simp only [BitVec.getLsbD_append]
    interval_cases k <;> simp
  have x : (0#3 ++ f : BitVec 7).extractLsb' 0 4 = f := by
    apply BitVec.eq_of_getLsbD_eq
    intro k hk
    simp only [BitVec.getLsbD_extractLsb', BitVec.getLsbD_append]
    interval_cases k <;> simp
  rw [encodeNonMemory, e]
  exact decode_nonMemoryWord sec (0#3 ++ f) j rest fun h f1 f2 f3 => hj h f1 f2 (f3.trans x)

theorem decode_shiftWord (s0 : BitVec 1) (s : BitVec 2) (x1 : BitVec 3) (c : BitVec 5) (j : Instr) (rest : List Byte)
    (hj : ∀ h : Half, h.extractLsb' 11 5 = 1#5 → h.getLsbD 10 = s0.getLsbD 0 → h.extractLsb' 7 3 = x1 →
      h.getLsbD 6 = s.getLsbD 1 → h.getLsbD 5 = s.getLsbD 0 → h.extractLsb' 0 5 = c → decodeShort h = .ok j) :
    decode (halfBytes (1#5 ++ s0 ++ x1 ++ s ++ c) ++ rest) = .ok (j, rest) := by
  obtain ⟨f1, f2, f3, f4, f5, f6⟩ := shift_fields s0 s x1 c _ rfl
  refine decode_shortCode _ _ _ ?_ (hj _ f1 f2 f3 f4 f5 f6)
  rw [Code.ruled, isLong, f1]
  rfl

theorem decode_shift (s0 s1 s2 : Bool) (x1 : BitVec 3) (c : BitVec 5) (j : Instr) (rest : List Byte)
    (hj : ∀ h : Half, h.extractLsb' 11 5 = 1#5 → h.getLsbD 10 = s0 → h.extractLsb' 7 3 = x1 → h.getLsbD 6 = s1 →
      h.getLsbD 5 = s2 → h.extractLsb' 0 5 = c → decodeShort h = .ok j) :
    decode ((encodeShift s0 s1 s2 x1 c).bytes ++ rest) = .ok (j, rest) := by
  have e : 1#5 ++ BitVec.ofBool s0 ++ x1 ++ BitVec.ofBool s1 ++ BitVec.ofBool s2 ++ c =
      1#5 ++ BitVec.ofBool s0 ++ x1 ++ (BitVec.ofBool s1 ++ BitVec.ofBool s2) ++ c := by
    apply BitVec.eq_of_getLsbD_eq
    intro k hk
    simp only [BitVec.getLsbD_append]
    interval_cases k <;> simp
  rw [encodeShift, e]
  refine decode_shiftWord _ _ x1 c j rest fun h f1 f2 f3 f4 f5 f6 => hj h f1 (f2.trans ?_) f3 (f4.trans ?_)
    (f5.trans ?_) f6
  · simp
  · simp only [BitVec.getLsbD_append]
    simp
  · simp only [BitVec.getLsbD_append]
    simp

theorem decode_block (sec : Bool) (x1 : BitVec 3) (c : BitVec 7) (j : Instr) (rest : List Byte)
    (hj : ∀ h : Half, h.extractLsb' 11 5 = 5#5 → h.getLsbD 10 = sec → h.extractLsb' 7 3 = x1 →
      h.extractLsb' 0 7 = c → decodeShort h = .ok j) :
    decode ((encodeBlock sec x1 c).bytes ++ rest) = .ok (j, rest) := by
  obtain ⟨f1, f2, f3, f4⟩ := shortMem_fields 5#5 (BitVec.ofBool sec) x1 c _ rfl
  exact decode_shortCode _ _ _ (encodeBlock_ruled sec x1 c) (hj _ f1 (f2.trans (by simp)) f3 f4)

theorem decode_shortJump (c : BitVec 2) (p : Bool) (m7 : BitVec 7) (j : Instr) (rest : List Byte)
    (hj : ∀ h : Half, h.extractLsb' 11 5 = 12#5 → h.getLsbD 9 = c.getLsbD 1 → h.getLsbD 8 = c.getLsbD 0 →
      h.getLsbD 7 = p → h.extractLsb' 0 7 = m7 → decodeShort h = .ok j) :
    decode ((encodeShortJump c p m7).bytes ++ rest) = .ok (j, rest) := by
  obtain ⟨f1, _, f3, f4, f5, f6⟩ := shortJump_fields c p m7 _ rfl
  exact decode_shortCode _ _ _ (encodeShortJump_ruled c p m7) (hj _ f1 f3 f4 f5 f6)

theorem decode_longJump (sel sec : BitVec 4) (m18 : BitVec 18) (j : Instr) (rest : List Byte)
    (hj : ∀ w : Word32, w.extractLsb' 27 5 = 12#5 → w.extractLsb' 22 4 = sel → w.extractLsb' 18 4 = sec →
      w.extractLsb' 0 18 = m18 → w.extractLsb' 23 3 = sel.extractLsb' 1 3 → w.extractLsb' 22 2 = sel.extractLsb' 0 2 →
      w.extractLsb' 24 2 = sel.extractLsb' 2 2 → decodeLong w = .ok j) :
    decode ((encodeLongJump sel sec m18).bytes ++ rest) = .ok (j, rest) := by
  obtain ⟨f1, _, f3, f4, f5, f6, f7, f8⟩ := longJump_fields sel sec m18 _ rfl
  exact decode_longCode _ _ _ (encodeLongJump_ruled sel sec m18) (hj _ f1 f3 f4 f5 f6 f7 f8)

theorem decode_shortIo (d c : Bool) (dc : BitVec 6) (k : Bool) (j : Instr) (rest : List Byte)
    (hj : ∀ h : Half, h.extractLsb' 11 5 = 9#5 → h.getLsbD 9 = c → h.extractLsb' 3 6 = dc → h.getLsbD 1 = d →
      h.getLsbD 0 = k → decodeShort h = .ok j) :
    decode ((encodeShortIo d c dc k).bytes ++ rest) = .ok (j, rest) := by
  obtain ⟨f1, _, f3, f4, f5, f6⟩ := shortIo_fields d c dc k false _ rfl
  exact decode_shortCode _ _ _ (encodeShortIo_ruled d c dc k) (hj _ f1 f3 f4 f5 f6)

theorem decode_longIo (d c : Bool) (dc : BitVec 6) (i k : Bool) (m16 : BitVec 16) (j : Instr) (rest : List Byte)
    (hj : ∀ w : Word32, w.extractLsb' 27 5 = 9#5 → w.getLsbD 25 = c → w.extractLsb' 19 6 = dc → w.getLsbD 18 = i →
      w.getLsbD 17 = d → w.getLsbD 16 = k → w.extractLsb' 0 16 = m16 → decodeLong w = .ok j) :
    decode ((encodeLongIo d c dc i k m16).bytes ++ rest) = .ok (j, rest) := by
  obtain ⟨f1, _, f3, f4, f5, f6, f7, f8⟩ := longIo_fields d c dc i k m16 _ rfl
  exact decode_longCode _ _ _ (encodeLongIo_ruled d c dc i k m16) (hj _ f1 f3 f4 f5 f6 f7 f8)

end Sys2Proof
end

