-- ==== Sys2Proof/Laws/State.lean ====
section
/-! SUPPORT. What each update of State does to each field, so that no proof unfolds a record update. -/

namespace Sys2Proof.Machine

@[simp] theorem State.setA_cfg (s : State) (v : Word32) : (s.setA v).cfg = s.cfg := rfl
@[simp] theorem State.setA_regA (s : State) (v : Word32) : (s.setA v).regA = v := rfl
@[simp] theorem State.setA_regB (s : State) (v : Word32) : (s.setA v).regB = s.regB := rfl
@[simp] theorem State.setA_pc (s : State) (v : Word32) : (s.setA v).pc = s.pc := rfl
@[simp] theorem State.setA_ir (s : State) (v : Word32) : (s.setA v).ir = s.ir := rfl
@[simp] theorem State.setA_irHeld (s : State) (v : Word32) : (s.setA v).irHeld = s.irHeld := rfl
@[simp] theorem State.setA_oar (s : State) (v : Word32) : (s.setA v).oar = s.oar := rfl
@[simp] theorem State.setA_xrf (s : State) (v : Word32) : (s.setA v).xrf = s.xrf := rfl
@[simp] theorem State.setA_sr (s : State) (v : Word32) : (s.setA v).sr = s.sr := rfl
@[simp] theorem State.setA_mr (s : State) (v : Word32) : (s.setA v).mr = s.mr := rfl
@[simp] theorem State.setA_mem (s : State) (v : Word32) : (s.setA v).mem = s.mem := rfl
@[simp] theorem State.setA_pending (s : State) (v : Word32) : (s.setA v).pending = s.pending := rfl
@[simp] theorem State.setA_inService (s : State) (v : Word32) : (s.setA v).inService = s.inService := rfl
@[simp] theorem State.setA_holdoff (s : State) (v : Word32) : (s.setA v).holdoff = s.holdoff := rfl
@[simp] theorem State.setA_halted (s : State) (v : Word32) : (s.setA v).halted = s.halted := rfl
@[simp] theorem State.setA_ioDeferred (s : State) (v : Word32) : (s.setA v).ioDeferred = s.ioDeferred := rfl
@[simp] theorem State.setA_steals (s : State) (v : Word32) : (s.setA v).steals = s.steals := rfl
@[simp] theorem State.setA_switches (s : State) (v : Word32) : (s.setA v).switches = s.switches := rfl
@[simp] theorem State.setA_testSignal (s : State) (v : Word32) : (s.setA v).testSignal = s.testSignal := rfl
@[simp] theorem State.setA_arrivals (s : State) (v : Word32) : (s.setA v).arrivals = s.arrivals := rfl
@[simp] theorem State.setA_busIn (s : State) (v : Word32) : (s.setA v).busIn = s.busIn := rfl
@[simp] theorem State.setA_ioLog (s : State) (v : Word32) : (s.setA v).ioLog = s.ioLog := rfl
@[simp] theorem State.setA_draws (s : State) (v : Word32) : (s.setA v).draws = s.draws := rfl
@[simp] theorem State.setB_cfg (s : State) (v : Word32) : (s.setB v).cfg = s.cfg := rfl
@[simp] theorem State.setB_regA (s : State) (v : Word32) : (s.setB v).regA = s.regA := rfl
@[simp] theorem State.setB_regB (s : State) (v : Word32) : (s.setB v).regB = v := rfl
@[simp] theorem State.setB_pc (s : State) (v : Word32) : (s.setB v).pc = s.pc := rfl
@[simp] theorem State.setB_ir (s : State) (v : Word32) : (s.setB v).ir = s.ir := rfl
@[simp] theorem State.setB_irHeld (s : State) (v : Word32) : (s.setB v).irHeld = s.irHeld := rfl
@[simp] theorem State.setB_oar (s : State) (v : Word32) : (s.setB v).oar = s.oar := rfl
@[simp] theorem State.setB_xrf (s : State) (v : Word32) : (s.setB v).xrf = s.xrf := rfl
@[simp] theorem State.setB_sr (s : State) (v : Word32) : (s.setB v).sr = s.sr := rfl
@[simp] theorem State.setB_mr (s : State) (v : Word32) : (s.setB v).mr = s.mr := rfl
@[simp] theorem State.setB_mem (s : State) (v : Word32) : (s.setB v).mem = s.mem := rfl
@[simp] theorem State.setB_pending (s : State) (v : Word32) : (s.setB v).pending = s.pending := rfl
@[simp] theorem State.setB_inService (s : State) (v : Word32) : (s.setB v).inService = s.inService := rfl
@[simp] theorem State.setB_holdoff (s : State) (v : Word32) : (s.setB v).holdoff = s.holdoff := rfl
@[simp] theorem State.setB_halted (s : State) (v : Word32) : (s.setB v).halted = s.halted := rfl
@[simp] theorem State.setB_ioDeferred (s : State) (v : Word32) : (s.setB v).ioDeferred = s.ioDeferred := rfl
@[simp] theorem State.setB_steals (s : State) (v : Word32) : (s.setB v).steals = s.steals := rfl
@[simp] theorem State.setB_switches (s : State) (v : Word32) : (s.setB v).switches = s.switches := rfl
@[simp] theorem State.setB_testSignal (s : State) (v : Word32) : (s.setB v).testSignal = s.testSignal := rfl
@[simp] theorem State.setB_arrivals (s : State) (v : Word32) : (s.setB v).arrivals = s.arrivals := rfl
@[simp] theorem State.setB_busIn (s : State) (v : Word32) : (s.setB v).busIn = s.busIn := rfl
@[simp] theorem State.setB_ioLog (s : State) (v : Word32) : (s.setB v).ioLog = s.ioLog := rfl
@[simp] theorem State.setB_draws (s : State) (v : Word32) : (s.setB v).draws = s.draws := rfl
@[simp] theorem State.setPc_cfg (s : State) (v : Addr) : (s.setPc v).cfg = s.cfg := rfl
@[simp] theorem State.setPc_regA (s : State) (v : Addr) : (s.setPc v).regA = s.regA := rfl
@[simp] theorem State.setPc_regB (s : State) (v : Addr) : (s.setPc v).regB = s.regB := rfl
@[simp] theorem State.setPc_pc (s : State) (v : Addr) : (s.setPc v).pc = v := rfl
@[simp] theorem State.setPc_ir (s : State) (v : Addr) : (s.setPc v).ir = s.ir := rfl
@[simp] theorem State.setPc_irHeld (s : State) (v : Addr) : (s.setPc v).irHeld = s.irHeld := rfl
@[simp] theorem State.setPc_oar (s : State) (v : Addr) : (s.setPc v).oar = s.oar := rfl
@[simp] theorem State.setPc_xrf (s : State) (v : Addr) : (s.setPc v).xrf = s.xrf := rfl
@[simp] theorem State.setPc_sr (s : State) (v : Addr) : (s.setPc v).sr = s.sr := rfl
@[simp] theorem State.setPc_mr (s : State) (v : Addr) : (s.setPc v).mr = s.mr := rfl
@[simp] theorem State.setPc_mem (s : State) (v : Addr) : (s.setPc v).mem = s.mem := rfl
@[simp] theorem State.setPc_pending (s : State) (v : Addr) : (s.setPc v).pending = s.pending := rfl
@[simp] theorem State.setPc_inService (s : State) (v : Addr) : (s.setPc v).inService = s.inService := rfl
@[simp] theorem State.setPc_holdoff (s : State) (v : Addr) : (s.setPc v).holdoff = s.holdoff := rfl
@[simp] theorem State.setPc_halted (s : State) (v : Addr) : (s.setPc v).halted = s.halted := rfl
@[simp] theorem State.setPc_ioDeferred (s : State) (v : Addr) : (s.setPc v).ioDeferred = s.ioDeferred := rfl
@[simp] theorem State.setPc_steals (s : State) (v : Addr) : (s.setPc v).steals = s.steals := rfl
@[simp] theorem State.setPc_switches (s : State) (v : Addr) : (s.setPc v).switches = s.switches := rfl
@[simp] theorem State.setPc_testSignal (s : State) (v : Addr) : (s.setPc v).testSignal = s.testSignal := rfl
@[simp] theorem State.setPc_arrivals (s : State) (v : Addr) : (s.setPc v).arrivals = s.arrivals := rfl
@[simp] theorem State.setPc_busIn (s : State) (v : Addr) : (s.setPc v).busIn = s.busIn := rfl
@[simp] theorem State.setPc_ioLog (s : State) (v : Addr) : (s.setPc v).ioLog = s.ioLog := rfl
@[simp] theorem State.setPc_draws (s : State) (v : Addr) : (s.setPc v).draws = s.draws := rfl
@[simp] theorem State.setIr_cfg (s : State) (v : Word32) (h : Option Held) : (s.setIr v h).cfg = s.cfg := rfl
@[simp] theorem State.setIr_regA (s : State) (v : Word32) (h : Option Held) : (s.setIr v h).regA = s.regA := rfl
@[simp] theorem State.setIr_regB (s : State) (v : Word32) (h : Option Held) : (s.setIr v h).regB = s.regB := rfl
@[simp] theorem State.setIr_pc (s : State) (v : Word32) (h : Option Held) : (s.setIr v h).pc = s.pc := rfl
@[simp] theorem State.setIr_ir (s : State) (v : Word32) (h : Option Held) : (s.setIr v h).ir = v := rfl
@[simp] theorem State.setIr_irHeld (s : State) (v : Word32) (h : Option Held) : (s.setIr v h).irHeld = h := rfl
@[simp] theorem State.setIr_oar (s : State) (v : Word32) (h : Option Held) : (s.setIr v h).oar = s.oar := rfl
@[simp] theorem State.setIr_xrf (s : State) (v : Word32) (h : Option Held) : (s.setIr v h).xrf = s.xrf := rfl
@[simp] theorem State.setIr_sr (s : State) (v : Word32) (h : Option Held) : (s.setIr v h).sr = s.sr := rfl
@[simp] theorem State.setIr_mr (s : State) (v : Word32) (h : Option Held) : (s.setIr v h).mr = s.mr := rfl
@[simp] theorem State.setIr_mem (s : State) (v : Word32) (h : Option Held) : (s.setIr v h).mem = s.mem := rfl
@[simp] theorem State.setIr_pending (s : State) (v : Word32) (h : Option Held) : (s.setIr v h).pending = s.pending := rfl
@[simp] theorem State.setIr_inService (s : State) (v : Word32) (h : Option Held) : (s.setIr v h).inService = s.inService := rfl
@[simp] theorem State.setIr_holdoff (s : State) (v : Word32) (h : Option Held) : (s.setIr v h).holdoff = s.holdoff := rfl
@[simp] theorem State.setIr_halted (s : State) (v : Word32) (h : Option Held) : (s.setIr v h).halted = s.halted := rfl
@[simp] theorem State.setIr_ioDeferred (s : State) (v : Word32) (h : Option Held) : (s.setIr v h).ioDeferred = s.ioDeferred := rfl
@[simp] theorem State.setIr_steals (s : State) (v : Word32) (h : Option Held) : (s.setIr v h).steals = s.steals := rfl
@[simp] theorem State.setIr_switches (s : State) (v : Word32) (h : Option Held) : (s.setIr v h).switches = s.switches := rfl
@[simp] theorem State.setIr_testSignal (s : State) (v : Word32) (h : Option Held) : (s.setIr v h).testSignal = s.testSignal := rfl
@[simp] theorem State.setIr_arrivals (s : State) (v : Word32) (h : Option Held) : (s.setIr v h).arrivals = s.arrivals := rfl
@[simp] theorem State.setIr_busIn (s : State) (v : Word32) (h : Option Held) : (s.setIr v h).busIn = s.busIn := rfl
@[simp] theorem State.setIr_ioLog (s : State) (v : Word32) (h : Option Held) : (s.setIr v h).ioLog = s.ioLog := rfl
@[simp] theorem State.setIr_draws (s : State) (v : Word32) (h : Option Held) : (s.setIr v h).draws = s.draws := rfl
@[simp] theorem State.setHeld_cfg (s : State) (h : Option Held) : (s.setHeld h).cfg = s.cfg := rfl
@[simp] theorem State.setHeld_regA (s : State) (h : Option Held) : (s.setHeld h).regA = s.regA := rfl
@[simp] theorem State.setHeld_regB (s : State) (h : Option Held) : (s.setHeld h).regB = s.regB := rfl
@[simp] theorem State.setHeld_pc (s : State) (h : Option Held) : (s.setHeld h).pc = s.pc := rfl
@[simp] theorem State.setHeld_ir (s : State) (h : Option Held) : (s.setHeld h).ir = s.ir := rfl
@[simp] theorem State.setHeld_irHeld (s : State) (h : Option Held) : (s.setHeld h).irHeld = h := rfl
@[simp] theorem State.setHeld_oar (s : State) (h : Option Held) : (s.setHeld h).oar = s.oar := rfl
@[simp] theorem State.setHeld_xrf (s : State) (h : Option Held) : (s.setHeld h).xrf = s.xrf := rfl
@[simp] theorem State.setHeld_sr (s : State) (h : Option Held) : (s.setHeld h).sr = s.sr := rfl
@[simp] theorem State.setHeld_mr (s : State) (h : Option Held) : (s.setHeld h).mr = s.mr := rfl
@[simp] theorem State.setHeld_mem (s : State) (h : Option Held) : (s.setHeld h).mem = s.mem := rfl
@[simp] theorem State.setHeld_pending (s : State) (h : Option Held) : (s.setHeld h).pending = s.pending := rfl
@[simp] theorem State.setHeld_inService (s : State) (h : Option Held) : (s.setHeld h).inService = s.inService := rfl
@[simp] theorem State.setHeld_holdoff (s : State) (h : Option Held) : (s.setHeld h).holdoff = s.holdoff := rfl
@[simp] theorem State.setHeld_halted (s : State) (h : Option Held) : (s.setHeld h).halted = s.halted := rfl
@[simp] theorem State.setHeld_ioDeferred (s : State) (h : Option Held) : (s.setHeld h).ioDeferred = s.ioDeferred := rfl
@[simp] theorem State.setHeld_steals (s : State) (h : Option Held) : (s.setHeld h).steals = s.steals := rfl
@[simp] theorem State.setHeld_switches (s : State) (h : Option Held) : (s.setHeld h).switches = s.switches := rfl
@[simp] theorem State.setHeld_testSignal (s : State) (h : Option Held) : (s.setHeld h).testSignal = s.testSignal := rfl
@[simp] theorem State.setHeld_arrivals (s : State) (h : Option Held) : (s.setHeld h).arrivals = s.arrivals := rfl
@[simp] theorem State.setHeld_busIn (s : State) (h : Option Held) : (s.setHeld h).busIn = s.busIn := rfl
@[simp] theorem State.setHeld_ioLog (s : State) (h : Option Held) : (s.setHeld h).ioLog = s.ioLog := rfl
@[simp] theorem State.setHeld_draws (s : State) (h : Option Held) : (s.setHeld h).draws = s.draws := rfl
@[simp] theorem State.setOar_cfg (s : State) (v : Addr) : (s.setOar v).cfg = s.cfg := rfl
@[simp] theorem State.setOar_regA (s : State) (v : Addr) : (s.setOar v).regA = s.regA := rfl
@[simp] theorem State.setOar_regB (s : State) (v : Addr) : (s.setOar v).regB = s.regB := rfl
@[simp] theorem State.setOar_pc (s : State) (v : Addr) : (s.setOar v).pc = s.pc := rfl
@[simp] theorem State.setOar_ir (s : State) (v : Addr) : (s.setOar v).ir = s.ir := rfl
@[simp] theorem State.setOar_irHeld (s : State) (v : Addr) : (s.setOar v).irHeld = s.irHeld := rfl
@[simp] theorem State.setOar_oar (s : State) (v : Addr) : (s.setOar v).oar = v := rfl
@[simp] theorem State.setOar_xrf (s : State) (v : Addr) : (s.setOar v).xrf = s.xrf := rfl
@[simp] theorem State.setOar_sr (s : State) (v : Addr) : (s.setOar v).sr = s.sr := rfl
@[simp] theorem State.setOar_mr (s : State) (v : Addr) : (s.setOar v).mr = s.mr := rfl
@[simp] theorem State.setOar_mem (s : State) (v : Addr) : (s.setOar v).mem = s.mem := rfl
@[simp] theorem State.setOar_pending (s : State) (v : Addr) : (s.setOar v).pending = s.pending := rfl
@[simp] theorem State.setOar_inService (s : State) (v : Addr) : (s.setOar v).inService = s.inService := rfl
@[simp] theorem State.setOar_holdoff (s : State) (v : Addr) : (s.setOar v).holdoff = s.holdoff := rfl
@[simp] theorem State.setOar_halted (s : State) (v : Addr) : (s.setOar v).halted = s.halted := rfl
@[simp] theorem State.setOar_ioDeferred (s : State) (v : Addr) : (s.setOar v).ioDeferred = s.ioDeferred := rfl
@[simp] theorem State.setOar_steals (s : State) (v : Addr) : (s.setOar v).steals = s.steals := rfl
@[simp] theorem State.setOar_switches (s : State) (v : Addr) : (s.setOar v).switches = s.switches := rfl
@[simp] theorem State.setOar_testSignal (s : State) (v : Addr) : (s.setOar v).testSignal = s.testSignal := rfl
@[simp] theorem State.setOar_arrivals (s : State) (v : Addr) : (s.setOar v).arrivals = s.arrivals := rfl
@[simp] theorem State.setOar_busIn (s : State) (v : Addr) : (s.setOar v).busIn = s.busIn := rfl
@[simp] theorem State.setOar_ioLog (s : State) (v : Addr) : (s.setOar v).ioLog = s.ioLog := rfl
@[simp] theorem State.setOar_draws (s : State) (v : Addr) : (s.setOar v).draws = s.draws := rfl
@[simp] theorem State.setSr_cfg (s : State) (v : BitVec 16) : (s.setSr v).cfg = s.cfg := rfl
@[simp] theorem State.setSr_regA (s : State) (v : BitVec 16) : (s.setSr v).regA = s.regA := rfl
@[simp] theorem State.setSr_regB (s : State) (v : BitVec 16) : (s.setSr v).regB = s.regB := rfl
@[simp] theorem State.setSr_pc (s : State) (v : BitVec 16) : (s.setSr v).pc = s.pc := rfl
@[simp] theorem State.setSr_ir (s : State) (v : BitVec 16) : (s.setSr v).ir = s.ir := rfl
@[simp] theorem State.setSr_irHeld (s : State) (v : BitVec 16) : (s.setSr v).irHeld = s.irHeld := rfl
@[simp] theorem State.setSr_oar (s : State) (v : BitVec 16) : (s.setSr v).oar = s.oar := rfl
@[simp] theorem State.setSr_xrf (s : State) (v : BitVec 16) : (s.setSr v).xrf = s.xrf := rfl
@[simp] theorem State.setSr_sr (s : State) (v : BitVec 16) : (s.setSr v).sr = v := rfl
@[simp] theorem State.setSr_mr (s : State) (v : BitVec 16) : (s.setSr v).mr = s.mr := rfl
@[simp] theorem State.setSr_mem (s : State) (v : BitVec 16) : (s.setSr v).mem = s.mem := rfl
@[simp] theorem State.setSr_pending (s : State) (v : BitVec 16) : (s.setSr v).pending = s.pending := rfl
@[simp] theorem State.setSr_inService (s : State) (v : BitVec 16) : (s.setSr v).inService = s.inService := rfl
@[simp] theorem State.setSr_holdoff (s : State) (v : BitVec 16) : (s.setSr v).holdoff = s.holdoff := rfl
@[simp] theorem State.setSr_halted (s : State) (v : BitVec 16) : (s.setSr v).halted = s.halted := rfl
@[simp] theorem State.setSr_ioDeferred (s : State) (v : BitVec 16) : (s.setSr v).ioDeferred = s.ioDeferred := rfl
@[simp] theorem State.setSr_steals (s : State) (v : BitVec 16) : (s.setSr v).steals = s.steals := rfl
@[simp] theorem State.setSr_switches (s : State) (v : BitVec 16) : (s.setSr v).switches = s.switches := rfl
@[simp] theorem State.setSr_testSignal (s : State) (v : BitVec 16) : (s.setSr v).testSignal = s.testSignal := rfl
@[simp] theorem State.setSr_arrivals (s : State) (v : BitVec 16) : (s.setSr v).arrivals = s.arrivals := rfl
@[simp] theorem State.setSr_busIn (s : State) (v : BitVec 16) : (s.setSr v).busIn = s.busIn := rfl
@[simp] theorem State.setSr_ioLog (s : State) (v : BitVec 16) : (s.setSr v).ioLog = s.ioLog := rfl
@[simp] theorem State.setSr_draws (s : State) (v : BitVec 16) : (s.setSr v).draws = s.draws := rfl
@[simp] theorem State.setMr_cfg (s : State) (v : BitVec 16) : (s.setMr v).cfg = s.cfg := rfl
@[simp] theorem State.setMr_regA (s : State) (v : BitVec 16) : (s.setMr v).regA = s.regA := rfl
@[simp] theorem State.setMr_regB (s : State) (v : BitVec 16) : (s.setMr v).regB = s.regB := rfl
@[simp] theorem State.setMr_pc (s : State) (v : BitVec 16) : (s.setMr v).pc = s.pc := rfl
@[simp] theorem State.setMr_ir (s : State) (v : BitVec 16) : (s.setMr v).ir = s.ir := rfl
@[simp] theorem State.setMr_irHeld (s : State) (v : BitVec 16) : (s.setMr v).irHeld = s.irHeld := rfl
@[simp] theorem State.setMr_oar (s : State) (v : BitVec 16) : (s.setMr v).oar = s.oar := rfl
@[simp] theorem State.setMr_xrf (s : State) (v : BitVec 16) : (s.setMr v).xrf = s.xrf := rfl
@[simp] theorem State.setMr_sr (s : State) (v : BitVec 16) : (s.setMr v).sr = s.sr := rfl
@[simp] theorem State.setMr_mr (s : State) (v : BitVec 16) : (s.setMr v).mr = v := rfl
@[simp] theorem State.setMr_mem (s : State) (v : BitVec 16) : (s.setMr v).mem = s.mem := rfl
@[simp] theorem State.setMr_pending (s : State) (v : BitVec 16) : (s.setMr v).pending = s.pending := rfl
@[simp] theorem State.setMr_inService (s : State) (v : BitVec 16) : (s.setMr v).inService = s.inService := rfl
@[simp] theorem State.setMr_holdoff (s : State) (v : BitVec 16) : (s.setMr v).holdoff = s.holdoff := rfl
@[simp] theorem State.setMr_halted (s : State) (v : BitVec 16) : (s.setMr v).halted = s.halted := rfl
@[simp] theorem State.setMr_ioDeferred (s : State) (v : BitVec 16) : (s.setMr v).ioDeferred = s.ioDeferred := rfl
@[simp] theorem State.setMr_steals (s : State) (v : BitVec 16) : (s.setMr v).steals = s.steals := rfl
@[simp] theorem State.setMr_switches (s : State) (v : BitVec 16) : (s.setMr v).switches = s.switches := rfl
@[simp] theorem State.setMr_testSignal (s : State) (v : BitVec 16) : (s.setMr v).testSignal = s.testSignal := rfl
@[simp] theorem State.setMr_arrivals (s : State) (v : BitVec 16) : (s.setMr v).arrivals = s.arrivals := rfl
@[simp] theorem State.setMr_busIn (s : State) (v : BitVec 16) : (s.setMr v).busIn = s.busIn := rfl
@[simp] theorem State.setMr_ioLog (s : State) (v : BitVec 16) : (s.setMr v).ioLog = s.ioLog := rfl
@[simp] theorem State.setMr_draws (s : State) (v : BitVec 16) : (s.setMr v).draws = s.draws := rfl
@[simp] theorem State.setMem_cfg (s : State) (m : Memory) : (s.setMem m).cfg = s.cfg := rfl
@[simp] theorem State.setMem_regA (s : State) (m : Memory) : (s.setMem m).regA = s.regA := rfl
@[simp] theorem State.setMem_regB (s : State) (m : Memory) : (s.setMem m).regB = s.regB := rfl
@[simp] theorem State.setMem_pc (s : State) (m : Memory) : (s.setMem m).pc = s.pc := rfl
@[simp] theorem State.setMem_ir (s : State) (m : Memory) : (s.setMem m).ir = s.ir := rfl
@[simp] theorem State.setMem_irHeld (s : State) (m : Memory) : (s.setMem m).irHeld = s.irHeld := rfl
@[simp] theorem State.setMem_oar (s : State) (m : Memory) : (s.setMem m).oar = s.oar := rfl
@[simp] theorem State.setMem_xrf (s : State) (m : Memory) : (s.setMem m).xrf = s.xrf := rfl
@[simp] theorem State.setMem_sr (s : State) (m : Memory) : (s.setMem m).sr = s.sr := rfl
@[simp] theorem State.setMem_mr (s : State) (m : Memory) : (s.setMem m).mr = s.mr := rfl
@[simp] theorem State.setMem_mem (s : State) (m : Memory) : (s.setMem m).mem = m := rfl
@[simp] theorem State.setMem_pending (s : State) (m : Memory) : (s.setMem m).pending = s.pending := rfl
@[simp] theorem State.setMem_inService (s : State) (m : Memory) : (s.setMem m).inService = s.inService := rfl
@[simp] theorem State.setMem_holdoff (s : State) (m : Memory) : (s.setMem m).holdoff = s.holdoff := rfl
@[simp] theorem State.setMem_halted (s : State) (m : Memory) : (s.setMem m).halted = s.halted := rfl
@[simp] theorem State.setMem_ioDeferred (s : State) (m : Memory) : (s.setMem m).ioDeferred = s.ioDeferred := rfl
@[simp] theorem State.setMem_steals (s : State) (m : Memory) : (s.setMem m).steals = s.steals := rfl
@[simp] theorem State.setMem_switches (s : State) (m : Memory) : (s.setMem m).switches = s.switches := rfl
@[simp] theorem State.setMem_testSignal (s : State) (m : Memory) : (s.setMem m).testSignal = s.testSignal := rfl
@[simp] theorem State.setMem_arrivals (s : State) (m : Memory) : (s.setMem m).arrivals = s.arrivals := rfl
@[simp] theorem State.setMem_busIn (s : State) (m : Memory) : (s.setMem m).busIn = s.busIn := rfl
@[simp] theorem State.setMem_ioLog (s : State) (m : Memory) : (s.setMem m).ioLog = s.ioLog := rfl
@[simp] theorem State.setMem_draws (s : State) (m : Memory) : (s.setMem m).draws = s.draws := rfl
@[simp] theorem State.setPending_cfg (s : State) (v : BitVec 16) : (s.setPending v).cfg = s.cfg := rfl
@[simp] theorem State.setPending_regA (s : State) (v : BitVec 16) : (s.setPending v).regA = s.regA := rfl
@[simp] theorem State.setPending_regB (s : State) (v : BitVec 16) : (s.setPending v).regB = s.regB := rfl
@[simp] theorem State.setPending_pc (s : State) (v : BitVec 16) : (s.setPending v).pc = s.pc := rfl
@[simp] theorem State.setPending_ir (s : State) (v : BitVec 16) : (s.setPending v).ir = s.ir := rfl
@[simp] theorem State.setPending_irHeld (s : State) (v : BitVec 16) : (s.setPending v).irHeld = s.irHeld := rfl
@[simp] theorem State.setPending_oar (s : State) (v : BitVec 16) : (s.setPending v).oar = s.oar := rfl
@[simp] theorem State.setPending_xrf (s : State) (v : BitVec 16) : (s.setPending v).xrf = s.xrf := rfl
@[simp] theorem State.setPending_sr (s : State) (v : BitVec 16) : (s.setPending v).sr = s.sr := rfl
@[simp] theorem State.setPending_mr (s : State) (v : BitVec 16) : (s.setPending v).mr = s.mr := rfl
@[simp] theorem State.setPending_mem (s : State) (v : BitVec 16) : (s.setPending v).mem = s.mem := rfl
@[simp] theorem State.setPending_pending (s : State) (v : BitVec 16) : (s.setPending v).pending = v := rfl
@[simp] theorem State.setPending_inService (s : State) (v : BitVec 16) : (s.setPending v).inService = s.inService := rfl
@[simp] theorem State.setPending_holdoff (s : State) (v : BitVec 16) : (s.setPending v).holdoff = s.holdoff := rfl
@[simp] theorem State.setPending_halted (s : State) (v : BitVec 16) : (s.setPending v).halted = s.halted := rfl
@[simp] theorem State.setPending_ioDeferred (s : State) (v : BitVec 16) : (s.setPending v).ioDeferred = s.ioDeferred := rfl
@[simp] theorem State.setPending_steals (s : State) (v : BitVec 16) : (s.setPending v).steals = s.steals := rfl
@[simp] theorem State.setPending_switches (s : State) (v : BitVec 16) : (s.setPending v).switches = s.switches := rfl
@[simp] theorem State.setPending_testSignal (s : State) (v : BitVec 16) : (s.setPending v).testSignal = s.testSignal := rfl
@[simp] theorem State.setPending_arrivals (s : State) (v : BitVec 16) : (s.setPending v).arrivals = s.arrivals := rfl
@[simp] theorem State.setPending_busIn (s : State) (v : BitVec 16) : (s.setPending v).busIn = s.busIn := rfl
@[simp] theorem State.setPending_ioLog (s : State) (v : BitVec 16) : (s.setPending v).ioLog = s.ioLog := rfl
@[simp] theorem State.setPending_draws (s : State) (v : BitVec 16) : (s.setPending v).draws = s.draws := rfl
@[simp] theorem State.setInService_cfg (s : State) (v : BitVec 16) : (s.setInService v).cfg = s.cfg := rfl
@[simp] theorem State.setInService_regA (s : State) (v : BitVec 16) : (s.setInService v).regA = s.regA := rfl
@[simp] theorem State.setInService_regB (s : State) (v : BitVec 16) : (s.setInService v).regB = s.regB := rfl
@[simp] theorem State.setInService_pc (s : State) (v : BitVec 16) : (s.setInService v).pc = s.pc := rfl
@[simp] theorem State.setInService_ir (s : State) (v : BitVec 16) : (s.setInService v).ir = s.ir := rfl
@[simp] theorem State.setInService_irHeld (s : State) (v : BitVec 16) : (s.setInService v).irHeld = s.irHeld := rfl
@[simp] theorem State.setInService_oar (s : State) (v : BitVec 16) : (s.setInService v).oar = s.oar := rfl
@[simp] theorem State.setInService_xrf (s : State) (v : BitVec 16) : (s.setInService v).xrf = s.xrf := rfl
@[simp] theorem State.setInService_sr (s : State) (v : BitVec 16) : (s.setInService v).sr = s.sr := rfl
@[simp] theorem State.setInService_mr (s : State) (v : BitVec 16) : (s.setInService v).mr = s.mr := rfl
@[simp] theorem State.setInService_mem (s : State) (v : BitVec 16) : (s.setInService v).mem = s.mem := rfl
@[simp] theorem State.setInService_pending (s : State) (v : BitVec 16) : (s.setInService v).pending = s.pending := rfl
@[simp] theorem State.setInService_inService (s : State) (v : BitVec 16) : (s.setInService v).inService = v := rfl
@[simp] theorem State.setInService_holdoff (s : State) (v : BitVec 16) : (s.setInService v).holdoff = s.holdoff := rfl
@[simp] theorem State.setInService_halted (s : State) (v : BitVec 16) : (s.setInService v).halted = s.halted := rfl
@[simp] theorem State.setInService_ioDeferred (s : State) (v : BitVec 16) : (s.setInService v).ioDeferred = s.ioDeferred := rfl
@[simp] theorem State.setInService_steals (s : State) (v : BitVec 16) : (s.setInService v).steals = s.steals := rfl
@[simp] theorem State.setInService_switches (s : State) (v : BitVec 16) : (s.setInService v).switches = s.switches := rfl
@[simp] theorem State.setInService_testSignal (s : State) (v : BitVec 16) : (s.setInService v).testSignal = s.testSignal := rfl
@[simp] theorem State.setInService_arrivals (s : State) (v : BitVec 16) : (s.setInService v).arrivals = s.arrivals := rfl
@[simp] theorem State.setInService_busIn (s : State) (v : BitVec 16) : (s.setInService v).busIn = s.busIn := rfl
@[simp] theorem State.setInService_ioLog (s : State) (v : BitVec 16) : (s.setInService v).ioLog = s.ioLog := rfl
@[simp] theorem State.setInService_draws (s : State) (v : BitVec 16) : (s.setInService v).draws = s.draws := rfl
@[simp] theorem State.setHoldoff_cfg (s : State) (n : Nat) : (s.setHoldoff n).cfg = s.cfg := rfl
@[simp] theorem State.setHoldoff_regA (s : State) (n : Nat) : (s.setHoldoff n).regA = s.regA := rfl
@[simp] theorem State.setHoldoff_regB (s : State) (n : Nat) : (s.setHoldoff n).regB = s.regB := rfl
@[simp] theorem State.setHoldoff_pc (s : State) (n : Nat) : (s.setHoldoff n).pc = s.pc := rfl
@[simp] theorem State.setHoldoff_ir (s : State) (n : Nat) : (s.setHoldoff n).ir = s.ir := rfl
@[simp] theorem State.setHoldoff_irHeld (s : State) (n : Nat) : (s.setHoldoff n).irHeld = s.irHeld := rfl
@[simp] theorem State.setHoldoff_oar (s : State) (n : Nat) : (s.setHoldoff n).oar = s.oar := rfl
@[simp] theorem State.setHoldoff_xrf (s : State) (n : Nat) : (s.setHoldoff n).xrf = s.xrf := rfl
@[simp] theorem State.setHoldoff_sr (s : State) (n : Nat) : (s.setHoldoff n).sr = s.sr := rfl
@[simp] theorem State.setHoldoff_mr (s : State) (n : Nat) : (s.setHoldoff n).mr = s.mr := rfl
@[simp] theorem State.setHoldoff_mem (s : State) (n : Nat) : (s.setHoldoff n).mem = s.mem := rfl
@[simp] theorem State.setHoldoff_pending (s : State) (n : Nat) : (s.setHoldoff n).pending = s.pending := rfl
@[simp] theorem State.setHoldoff_inService (s : State) (n : Nat) : (s.setHoldoff n).inService = s.inService := rfl
@[simp] theorem State.setHoldoff_holdoff (s : State) (n : Nat) : (s.setHoldoff n).holdoff = n := rfl
@[simp] theorem State.setHoldoff_halted (s : State) (n : Nat) : (s.setHoldoff n).halted = s.halted := rfl
@[simp] theorem State.setHoldoff_ioDeferred (s : State) (n : Nat) : (s.setHoldoff n).ioDeferred = s.ioDeferred := rfl
@[simp] theorem State.setHoldoff_steals (s : State) (n : Nat) : (s.setHoldoff n).steals = s.steals := rfl
@[simp] theorem State.setHoldoff_switches (s : State) (n : Nat) : (s.setHoldoff n).switches = s.switches := rfl
@[simp] theorem State.setHoldoff_testSignal (s : State) (n : Nat) : (s.setHoldoff n).testSignal = s.testSignal := rfl
@[simp] theorem State.setHoldoff_arrivals (s : State) (n : Nat) : (s.setHoldoff n).arrivals = s.arrivals := rfl
@[simp] theorem State.setHoldoff_busIn (s : State) (n : Nat) : (s.setHoldoff n).busIn = s.busIn := rfl
@[simp] theorem State.setHoldoff_ioLog (s : State) (n : Nat) : (s.setHoldoff n).ioLog = s.ioLog := rfl
@[simp] theorem State.setHoldoff_draws (s : State) (n : Nat) : (s.setHoldoff n).draws = s.draws := rfl
@[simp] theorem State.setHalted_cfg (s : State) (h : Bool) : (s.setHalted h).cfg = s.cfg := rfl
@[simp] theorem State.setHalted_regA (s : State) (h : Bool) : (s.setHalted h).regA = s.regA := rfl
@[simp] theorem State.setHalted_regB (s : State) (h : Bool) : (s.setHalted h).regB = s.regB := rfl
@[simp] theorem State.setHalted_pc (s : State) (h : Bool) : (s.setHalted h).pc = s.pc := rfl
@[simp] theorem State.setHalted_ir (s : State) (h : Bool) : (s.setHalted h).ir = s.ir := rfl
@[simp] theorem State.setHalted_irHeld (s : State) (h : Bool) : (s.setHalted h).irHeld = s.irHeld := rfl
@[simp] theorem State.setHalted_oar (s : State) (h : Bool) : (s.setHalted h).oar = s.oar := rfl
@[simp] theorem State.setHalted_xrf (s : State) (h : Bool) : (s.setHalted h).xrf = s.xrf := rfl
@[simp] theorem State.setHalted_sr (s : State) (h : Bool) : (s.setHalted h).sr = s.sr := rfl
@[simp] theorem State.setHalted_mr (s : State) (h : Bool) : (s.setHalted h).mr = s.mr := rfl
@[simp] theorem State.setHalted_mem (s : State) (h : Bool) : (s.setHalted h).mem = s.mem := rfl
@[simp] theorem State.setHalted_pending (s : State) (h : Bool) : (s.setHalted h).pending = s.pending := rfl
@[simp] theorem State.setHalted_inService (s : State) (h : Bool) : (s.setHalted h).inService = s.inService := rfl
@[simp] theorem State.setHalted_holdoff (s : State) (h : Bool) : (s.setHalted h).holdoff = s.holdoff := rfl
@[simp] theorem State.setHalted_halted (s : State) (h : Bool) : (s.setHalted h).halted = h := rfl
@[simp] theorem State.setHalted_ioDeferred (s : State) (h : Bool) : (s.setHalted h).ioDeferred = s.ioDeferred := rfl
@[simp] theorem State.setHalted_steals (s : State) (h : Bool) : (s.setHalted h).steals = s.steals := rfl
@[simp] theorem State.setHalted_switches (s : State) (h : Bool) : (s.setHalted h).switches = s.switches := rfl
@[simp] theorem State.setHalted_testSignal (s : State) (h : Bool) : (s.setHalted h).testSignal = s.testSignal := rfl
@[simp] theorem State.setHalted_arrivals (s : State) (h : Bool) : (s.setHalted h).arrivals = s.arrivals := rfl
@[simp] theorem State.setHalted_busIn (s : State) (h : Bool) : (s.setHalted h).busIn = s.busIn := rfl
@[simp] theorem State.setHalted_ioLog (s : State) (h : Bool) : (s.setHalted h).ioLog = s.ioLog := rfl
@[simp] theorem State.setHalted_draws (s : State) (h : Bool) : (s.setHalted h).draws = s.draws := rfl
@[simp] theorem State.setIoDeferred_cfg (s : State) (l : List IoWrite) : (s.setIoDeferred l).cfg = s.cfg := rfl
@[simp] theorem State.setIoDeferred_regA (s : State) (l : List IoWrite) : (s.setIoDeferred l).regA = s.regA := rfl
@[simp] theorem State.setIoDeferred_regB (s : State) (l : List IoWrite) : (s.setIoDeferred l).regB = s.regB := rfl
@[simp] theorem State.setIoDeferred_pc (s : State) (l : List IoWrite) : (s.setIoDeferred l).pc = s.pc := rfl
@[simp] theorem State.setIoDeferred_ir (s : State) (l : List IoWrite) : (s.setIoDeferred l).ir = s.ir := rfl
@[simp] theorem State.setIoDeferred_irHeld (s : State) (l : List IoWrite) : (s.setIoDeferred l).irHeld = s.irHeld := rfl
@[simp] theorem State.setIoDeferred_oar (s : State) (l : List IoWrite) : (s.setIoDeferred l).oar = s.oar := rfl
@[simp] theorem State.setIoDeferred_xrf (s : State) (l : List IoWrite) : (s.setIoDeferred l).xrf = s.xrf := rfl
@[simp] theorem State.setIoDeferred_sr (s : State) (l : List IoWrite) : (s.setIoDeferred l).sr = s.sr := rfl
@[simp] theorem State.setIoDeferred_mr (s : State) (l : List IoWrite) : (s.setIoDeferred l).mr = s.mr := rfl
@[simp] theorem State.setIoDeferred_mem (s : State) (l : List IoWrite) : (s.setIoDeferred l).mem = s.mem := rfl
@[simp] theorem State.setIoDeferred_pending (s : State) (l : List IoWrite) : (s.setIoDeferred l).pending = s.pending := rfl
@[simp] theorem State.setIoDeferred_inService (s : State) (l : List IoWrite) : (s.setIoDeferred l).inService = s.inService := rfl
@[simp] theorem State.setIoDeferred_holdoff (s : State) (l : List IoWrite) : (s.setIoDeferred l).holdoff = s.holdoff := rfl
@[simp] theorem State.setIoDeferred_halted (s : State) (l : List IoWrite) : (s.setIoDeferred l).halted = s.halted := rfl
@[simp] theorem State.setIoDeferred_ioDeferred (s : State) (l : List IoWrite) : (s.setIoDeferred l).ioDeferred = l := rfl
@[simp] theorem State.setIoDeferred_steals (s : State) (l : List IoWrite) : (s.setIoDeferred l).steals = s.steals := rfl
@[simp] theorem State.setIoDeferred_switches (s : State) (l : List IoWrite) : (s.setIoDeferred l).switches = s.switches := rfl
@[simp] theorem State.setIoDeferred_testSignal (s : State) (l : List IoWrite) : (s.setIoDeferred l).testSignal = s.testSignal := rfl
@[simp] theorem State.setIoDeferred_arrivals (s : State) (l : List IoWrite) : (s.setIoDeferred l).arrivals = s.arrivals := rfl
@[simp] theorem State.setIoDeferred_busIn (s : State) (l : List IoWrite) : (s.setIoDeferred l).busIn = s.busIn := rfl
@[simp] theorem State.setIoDeferred_ioLog (s : State) (l : List IoWrite) : (s.setIoDeferred l).ioLog = s.ioLog := rfl
@[simp] theorem State.setIoDeferred_draws (s : State) (l : List IoWrite) : (s.setIoDeferred l).draws = s.draws := rfl
@[simp] theorem State.setSteals_cfg (s : State) (l : List (List IoWrite)) : (s.setSteals l).cfg = s.cfg := rfl
@[simp] theorem State.setSteals_regA (s : State) (l : List (List IoWrite)) : (s.setSteals l).regA = s.regA := rfl
@[simp] theorem State.setSteals_regB (s : State) (l : List (List IoWrite)) : (s.setSteals l).regB = s.regB := rfl
@[simp] theorem State.setSteals_pc (s : State) (l : List (List IoWrite)) : (s.setSteals l).pc = s.pc := rfl
@[simp] theorem State.setSteals_ir (s : State) (l : List (List IoWrite)) : (s.setSteals l).ir = s.ir := rfl
@[simp] theorem State.setSteals_irHeld (s : State) (l : List (List IoWrite)) : (s.setSteals l).irHeld = s.irHeld := rfl
@[simp] theorem State.setSteals_oar (s : State) (l : List (List IoWrite)) : (s.setSteals l).oar = s.oar := rfl
@[simp] theorem State.setSteals_xrf (s : State) (l : List (List IoWrite)) : (s.setSteals l).xrf = s.xrf := rfl
@[simp] theorem State.setSteals_sr (s : State) (l : List (List IoWrite)) : (s.setSteals l).sr = s.sr := rfl
@[simp] theorem State.setSteals_mr (s : State) (l : List (List IoWrite)) : (s.setSteals l).mr = s.mr := rfl
@[simp] theorem State.setSteals_mem (s : State) (l : List (List IoWrite)) : (s.setSteals l).mem = s.mem := rfl
@[simp] theorem State.setSteals_pending (s : State) (l : List (List IoWrite)) : (s.setSteals l).pending = s.pending := rfl
@[simp] theorem State.setSteals_inService (s : State) (l : List (List IoWrite)) : (s.setSteals l).inService = s.inService := rfl
@[simp] theorem State.setSteals_holdoff (s : State) (l : List (List IoWrite)) : (s.setSteals l).holdoff = s.holdoff := rfl
@[simp] theorem State.setSteals_halted (s : State) (l : List (List IoWrite)) : (s.setSteals l).halted = s.halted := rfl
@[simp] theorem State.setSteals_ioDeferred (s : State) (l : List (List IoWrite)) : (s.setSteals l).ioDeferred = s.ioDeferred := rfl
@[simp] theorem State.setSteals_steals (s : State) (l : List (List IoWrite)) : (s.setSteals l).steals = l := rfl
@[simp] theorem State.setSteals_switches (s : State) (l : List (List IoWrite)) : (s.setSteals l).switches = s.switches := rfl
@[simp] theorem State.setSteals_testSignal (s : State) (l : List (List IoWrite)) : (s.setSteals l).testSignal = s.testSignal := rfl
@[simp] theorem State.setSteals_arrivals (s : State) (l : List (List IoWrite)) : (s.setSteals l).arrivals = s.arrivals := rfl
@[simp] theorem State.setSteals_busIn (s : State) (l : List (List IoWrite)) : (s.setSteals l).busIn = s.busIn := rfl
@[simp] theorem State.setSteals_ioLog (s : State) (l : List (List IoWrite)) : (s.setSteals l).ioLog = s.ioLog := rfl
@[simp] theorem State.setSteals_draws (s : State) (l : List (List IoWrite)) : (s.setSteals l).draws = s.draws := rfl
@[simp] theorem State.setLines_cfg (s : State) (w : BitVec 4) (t : Bool) : (s.setLines w t).cfg = s.cfg := rfl
@[simp] theorem State.setLines_regA (s : State) (w : BitVec 4) (t : Bool) : (s.setLines w t).regA = s.regA := rfl
@[simp] theorem State.setLines_regB (s : State) (w : BitVec 4) (t : Bool) : (s.setLines w t).regB = s.regB := rfl
@[simp] theorem State.setLines_pc (s : State) (w : BitVec 4) (t : Bool) : (s.setLines w t).pc = s.pc := rfl
@[simp] theorem State.setLines_ir (s : State) (w : BitVec 4) (t : Bool) : (s.setLines w t).ir = s.ir := rfl
@[simp] theorem State.setLines_irHeld (s : State) (w : BitVec 4) (t : Bool) : (s.setLines w t).irHeld = s.irHeld := rfl
@[simp] theorem State.setLines_oar (s : State) (w : BitVec 4) (t : Bool) : (s.setLines w t).oar = s.oar := rfl
@[simp] theorem State.setLines_xrf (s : State) (w : BitVec 4) (t : Bool) : (s.setLines w t).xrf = s.xrf := rfl
@[simp] theorem State.setLines_sr (s : State) (w : BitVec 4) (t : Bool) : (s.setLines w t).sr = s.sr := rfl
@[simp] theorem State.setLines_mr (s : State) (w : BitVec 4) (t : Bool) : (s.setLines w t).mr = s.mr := rfl
@[simp] theorem State.setLines_mem (s : State) (w : BitVec 4) (t : Bool) : (s.setLines w t).mem = s.mem := rfl
@[simp] theorem State.setLines_pending (s : State) (w : BitVec 4) (t : Bool) : (s.setLines w t).pending = s.pending := rfl
@[simp] theorem State.setLines_inService (s : State) (w : BitVec 4) (t : Bool) : (s.setLines w t).inService = s.inService := rfl
@[simp] theorem State.setLines_holdoff (s : State) (w : BitVec 4) (t : Bool) : (s.setLines w t).holdoff = s.holdoff := rfl
@[simp] theorem State.setLines_halted (s : State) (w : BitVec 4) (t : Bool) : (s.setLines w t).halted = s.halted := rfl
@[simp] theorem State.setLines_ioDeferred (s : State) (w : BitVec 4) (t : Bool) : (s.setLines w t).ioDeferred = s.ioDeferred := rfl
@[simp] theorem State.setLines_steals (s : State) (w : BitVec 4) (t : Bool) : (s.setLines w t).steals = s.steals := rfl
@[simp] theorem State.setLines_switches (s : State) (w : BitVec 4) (t : Bool) : (s.setLines w t).switches = w := rfl
@[simp] theorem State.setLines_testSignal (s : State) (w : BitVec 4) (t : Bool) : (s.setLines w t).testSignal = t := rfl
@[simp] theorem State.setLines_arrivals (s : State) (w : BitVec 4) (t : Bool) : (s.setLines w t).arrivals = s.arrivals := rfl
@[simp] theorem State.setLines_busIn (s : State) (w : BitVec 4) (t : Bool) : (s.setLines w t).busIn = s.busIn := rfl
@[simp] theorem State.setLines_ioLog (s : State) (w : BitVec 4) (t : Bool) : (s.setLines w t).ioLog = s.ioLog := rfl
@[simp] theorem State.setLines_draws (s : State) (w : BitVec 4) (t : Bool) : (s.setLines w t).draws = s.draws := rfl
@[simp] theorem State.setArrivals_cfg (s : State) (l : List Arrival) : (s.setArrivals l).cfg = s.cfg := rfl
@[simp] theorem State.setArrivals_regA (s : State) (l : List Arrival) : (s.setArrivals l).regA = s.regA := rfl
@[simp] theorem State.setArrivals_regB (s : State) (l : List Arrival) : (s.setArrivals l).regB = s.regB := rfl
@[simp] theorem State.setArrivals_pc (s : State) (l : List Arrival) : (s.setArrivals l).pc = s.pc := rfl
@[simp] theorem State.setArrivals_ir (s : State) (l : List Arrival) : (s.setArrivals l).ir = s.ir := rfl
@[simp] theorem State.setArrivals_irHeld (s : State) (l : List Arrival) : (s.setArrivals l).irHeld = s.irHeld := rfl
@[simp] theorem State.setArrivals_oar (s : State) (l : List Arrival) : (s.setArrivals l).oar = s.oar := rfl
@[simp] theorem State.setArrivals_xrf (s : State) (l : List Arrival) : (s.setArrivals l).xrf = s.xrf := rfl
@[simp] theorem State.setArrivals_sr (s : State) (l : List Arrival) : (s.setArrivals l).sr = s.sr := rfl
@[simp] theorem State.setArrivals_mr (s : State) (l : List Arrival) : (s.setArrivals l).mr = s.mr := rfl
@[simp] theorem State.setArrivals_mem (s : State) (l : List Arrival) : (s.setArrivals l).mem = s.mem := rfl
@[simp] theorem State.setArrivals_pending (s : State) (l : List Arrival) : (s.setArrivals l).pending = s.pending := rfl
@[simp] theorem State.setArrivals_inService (s : State) (l : List Arrival) : (s.setArrivals l).inService = s.inService := rfl
@[simp] theorem State.setArrivals_holdoff (s : State) (l : List Arrival) : (s.setArrivals l).holdoff = s.holdoff := rfl
@[simp] theorem State.setArrivals_halted (s : State) (l : List Arrival) : (s.setArrivals l).halted = s.halted := rfl
@[simp] theorem State.setArrivals_ioDeferred (s : State) (l : List Arrival) : (s.setArrivals l).ioDeferred = s.ioDeferred := rfl
@[simp] theorem State.setArrivals_steals (s : State) (l : List Arrival) : (s.setArrivals l).steals = s.steals := rfl
@[simp] theorem State.setArrivals_switches (s : State) (l : List Arrival) : (s.setArrivals l).switches = s.switches := rfl
@[simp] theorem State.setArrivals_testSignal (s : State) (l : List Arrival) : (s.setArrivals l).testSignal = s.testSignal := rfl
@[simp] theorem State.setArrivals_arrivals (s : State) (l : List Arrival) : (s.setArrivals l).arrivals = l := rfl
@[simp] theorem State.setArrivals_busIn (s : State) (l : List Arrival) : (s.setArrivals l).busIn = s.busIn := rfl
@[simp] theorem State.setArrivals_ioLog (s : State) (l : List Arrival) : (s.setArrivals l).ioLog = s.ioLog := rfl
@[simp] theorem State.setArrivals_draws (s : State) (l : List Arrival) : (s.setArrivals l).draws = s.draws := rfl
@[simp] theorem State.setBusIn_cfg (s : State) (l : List Word32) : (s.setBusIn l).cfg = s.cfg := rfl
@[simp] theorem State.setBusIn_regA (s : State) (l : List Word32) : (s.setBusIn l).regA = s.regA := rfl
@[simp] theorem State.setBusIn_regB (s : State) (l : List Word32) : (s.setBusIn l).regB = s.regB := rfl
@[simp] theorem State.setBusIn_pc (s : State) (l : List Word32) : (s.setBusIn l).pc = s.pc := rfl
@[simp] theorem State.setBusIn_ir (s : State) (l : List Word32) : (s.setBusIn l).ir = s.ir := rfl
@[simp] theorem State.setBusIn_irHeld (s : State) (l : List Word32) : (s.setBusIn l).irHeld = s.irHeld := rfl
@[simp] theorem State.setBusIn_oar (s : State) (l : List Word32) : (s.setBusIn l).oar = s.oar := rfl
@[simp] theorem State.setBusIn_xrf (s : State) (l : List Word32) : (s.setBusIn l).xrf = s.xrf := rfl
@[simp] theorem State.setBusIn_sr (s : State) (l : List Word32) : (s.setBusIn l).sr = s.sr := rfl
@[simp] theorem State.setBusIn_mr (s : State) (l : List Word32) : (s.setBusIn l).mr = s.mr := rfl
@[simp] theorem State.setBusIn_mem (s : State) (l : List Word32) : (s.setBusIn l).mem = s.mem := rfl
@[simp] theorem State.setBusIn_pending (s : State) (l : List Word32) : (s.setBusIn l).pending = s.pending := rfl
@[simp] theorem State.setBusIn_inService (s : State) (l : List Word32) : (s.setBusIn l).inService = s.inService := rfl
@[simp] theorem State.setBusIn_holdoff (s : State) (l : List Word32) : (s.setBusIn l).holdoff = s.holdoff := rfl
@[simp] theorem State.setBusIn_halted (s : State) (l : List Word32) : (s.setBusIn l).halted = s.halted := rfl
@[simp] theorem State.setBusIn_ioDeferred (s : State) (l : List Word32) : (s.setBusIn l).ioDeferred = s.ioDeferred := rfl
@[simp] theorem State.setBusIn_steals (s : State) (l : List Word32) : (s.setBusIn l).steals = s.steals := rfl
@[simp] theorem State.setBusIn_switches (s : State) (l : List Word32) : (s.setBusIn l).switches = s.switches := rfl
@[simp] theorem State.setBusIn_testSignal (s : State) (l : List Word32) : (s.setBusIn l).testSignal = s.testSignal := rfl
@[simp] theorem State.setBusIn_arrivals (s : State) (l : List Word32) : (s.setBusIn l).arrivals = s.arrivals := rfl
@[simp] theorem State.setBusIn_busIn (s : State) (l : List Word32) : (s.setBusIn l).busIn = l := rfl
@[simp] theorem State.setBusIn_ioLog (s : State) (l : List Word32) : (s.setBusIn l).ioLog = s.ioLog := rfl
@[simp] theorem State.setBusIn_draws (s : State) (l : List Word32) : (s.setBusIn l).draws = s.draws := rfl
@[simp] theorem State.setIoLog_cfg (s : State) (l : List IoEvent) : (s.setIoLog l).cfg = s.cfg := rfl
@[simp] theorem State.setIoLog_regA (s : State) (l : List IoEvent) : (s.setIoLog l).regA = s.regA := rfl
@[simp] theorem State.setIoLog_regB (s : State) (l : List IoEvent) : (s.setIoLog l).regB = s.regB := rfl
@[simp] theorem State.setIoLog_pc (s : State) (l : List IoEvent) : (s.setIoLog l).pc = s.pc := rfl
@[simp] theorem State.setIoLog_ir (s : State) (l : List IoEvent) : (s.setIoLog l).ir = s.ir := rfl
@[simp] theorem State.setIoLog_irHeld (s : State) (l : List IoEvent) : (s.setIoLog l).irHeld = s.irHeld := rfl
@[simp] theorem State.setIoLog_oar (s : State) (l : List IoEvent) : (s.setIoLog l).oar = s.oar := rfl
@[simp] theorem State.setIoLog_xrf (s : State) (l : List IoEvent) : (s.setIoLog l).xrf = s.xrf := rfl
@[simp] theorem State.setIoLog_sr (s : State) (l : List IoEvent) : (s.setIoLog l).sr = s.sr := rfl
@[simp] theorem State.setIoLog_mr (s : State) (l : List IoEvent) : (s.setIoLog l).mr = s.mr := rfl
@[simp] theorem State.setIoLog_mem (s : State) (l : List IoEvent) : (s.setIoLog l).mem = s.mem := rfl
@[simp] theorem State.setIoLog_pending (s : State) (l : List IoEvent) : (s.setIoLog l).pending = s.pending := rfl
@[simp] theorem State.setIoLog_inService (s : State) (l : List IoEvent) : (s.setIoLog l).inService = s.inService := rfl
@[simp] theorem State.setIoLog_holdoff (s : State) (l : List IoEvent) : (s.setIoLog l).holdoff = s.holdoff := rfl
@[simp] theorem State.setIoLog_halted (s : State) (l : List IoEvent) : (s.setIoLog l).halted = s.halted := rfl
@[simp] theorem State.setIoLog_ioDeferred (s : State) (l : List IoEvent) : (s.setIoLog l).ioDeferred = s.ioDeferred := rfl
@[simp] theorem State.setIoLog_steals (s : State) (l : List IoEvent) : (s.setIoLog l).steals = s.steals := rfl
@[simp] theorem State.setIoLog_switches (s : State) (l : List IoEvent) : (s.setIoLog l).switches = s.switches := rfl
@[simp] theorem State.setIoLog_testSignal (s : State) (l : List IoEvent) : (s.setIoLog l).testSignal = s.testSignal := rfl
@[simp] theorem State.setIoLog_arrivals (s : State) (l : List IoEvent) : (s.setIoLog l).arrivals = s.arrivals := rfl
@[simp] theorem State.setIoLog_busIn (s : State) (l : List IoEvent) : (s.setIoLog l).busIn = s.busIn := rfl
@[simp] theorem State.setIoLog_ioLog (s : State) (l : List IoEvent) : (s.setIoLog l).ioLog = l := rfl
@[simp] theorem State.setIoLog_draws (s : State) (l : List IoEvent) : (s.setIoLog l).draws = s.draws := rfl
@[simp] theorem State.setDraws_cfg (s : State) (n : Nat) : (s.setDraws n).cfg = s.cfg := rfl
@[simp] theorem State.setDraws_regA (s : State) (n : Nat) : (s.setDraws n).regA = s.regA := rfl
@[simp] theorem State.setDraws_regB (s : State) (n : Nat) : (s.setDraws n).regB = s.regB := rfl
@[simp] theorem State.setDraws_pc (s : State) (n : Nat) : (s.setDraws n).pc = s.pc := rfl
@[simp] theorem State.setDraws_ir (s : State) (n : Nat) : (s.setDraws n).ir = s.ir := rfl
@[simp] theorem State.setDraws_irHeld (s : State) (n : Nat) : (s.setDraws n).irHeld = s.irHeld := rfl
@[simp] theorem State.setDraws_oar (s : State) (n : Nat) : (s.setDraws n).oar = s.oar := rfl
@[simp] theorem State.setDraws_xrf (s : State) (n : Nat) : (s.setDraws n).xrf = s.xrf := rfl
@[simp] theorem State.setDraws_sr (s : State) (n : Nat) : (s.setDraws n).sr = s.sr := rfl
@[simp] theorem State.setDraws_mr (s : State) (n : Nat) : (s.setDraws n).mr = s.mr := rfl
@[simp] theorem State.setDraws_mem (s : State) (n : Nat) : (s.setDraws n).mem = s.mem := rfl
@[simp] theorem State.setDraws_pending (s : State) (n : Nat) : (s.setDraws n).pending = s.pending := rfl
@[simp] theorem State.setDraws_inService (s : State) (n : Nat) : (s.setDraws n).inService = s.inService := rfl
@[simp] theorem State.setDraws_holdoff (s : State) (n : Nat) : (s.setDraws n).holdoff = s.holdoff := rfl
@[simp] theorem State.setDraws_halted (s : State) (n : Nat) : (s.setDraws n).halted = s.halted := rfl
@[simp] theorem State.setDraws_ioDeferred (s : State) (n : Nat) : (s.setDraws n).ioDeferred = s.ioDeferred := rfl
@[simp] theorem State.setDraws_steals (s : State) (n : Nat) : (s.setDraws n).steals = s.steals := rfl
@[simp] theorem State.setDraws_switches (s : State) (n : Nat) : (s.setDraws n).switches = s.switches := rfl
@[simp] theorem State.setDraws_testSignal (s : State) (n : Nat) : (s.setDraws n).testSignal = s.testSignal := rfl
@[simp] theorem State.setDraws_arrivals (s : State) (n : Nat) : (s.setDraws n).arrivals = s.arrivals := rfl
@[simp] theorem State.setDraws_busIn (s : State) (n : Nat) : (s.setDraws n).busIn = s.busIn := rfl
@[simp] theorem State.setDraws_ioLog (s : State) (n : Nat) : (s.setDraws n).ioLog = s.ioLog := rfl
@[simp] theorem State.setDraws_draws (s : State) (n : Nat) : (s.setDraws n).draws = n := rfl
@[simp] theorem State.setXr_cfg (s : State) (n : BitVec 4) (v : Addr) : (s.setXr n v).cfg = s.cfg := rfl
@[simp] theorem State.setXr_regA (s : State) (n : BitVec 4) (v : Addr) : (s.setXr n v).regA = s.regA := rfl
@[simp] theorem State.setXr_regB (s : State) (n : BitVec 4) (v : Addr) : (s.setXr n v).regB = s.regB := rfl
@[simp] theorem State.setXr_pc (s : State) (n : BitVec 4) (v : Addr) : (s.setXr n v).pc = s.pc := rfl
@[simp] theorem State.setXr_ir (s : State) (n : BitVec 4) (v : Addr) : (s.setXr n v).ir = s.ir := rfl
@[simp] theorem State.setXr_irHeld (s : State) (n : BitVec 4) (v : Addr) : (s.setXr n v).irHeld = s.irHeld := rfl
@[simp] theorem State.setXr_oar (s : State) (n : BitVec 4) (v : Addr) : (s.setXr n v).oar = s.oar := rfl
@[simp] theorem State.setXr_xrf (s : State) (n : BitVec 4) (v : Addr) : (s.setXr n v).xrf = s.xrf.set (s.xrPlace n).val v (s.xrPlace n).isLt := rfl
@[simp] theorem State.setXr_sr (s : State) (n : BitVec 4) (v : Addr) : (s.setXr n v).sr = s.sr := rfl
@[simp] theorem State.setXr_mr (s : State) (n : BitVec 4) (v : Addr) : (s.setXr n v).mr = s.mr := rfl
@[simp] theorem State.setXr_mem (s : State) (n : BitVec 4) (v : Addr) : (s.setXr n v).mem = s.mem := rfl
@[simp] theorem State.setXr_pending (s : State) (n : BitVec 4) (v : Addr) : (s.setXr n v).pending = s.pending := rfl
@[simp] theorem State.setXr_inService (s : State) (n : BitVec 4) (v : Addr) : (s.setXr n v).inService = s.inService := rfl
@[simp] theorem State.setXr_holdoff (s : State) (n : BitVec 4) (v : Addr) : (s.setXr n v).holdoff = s.holdoff := rfl
@[simp] theorem State.setXr_halted (s : State) (n : BitVec 4) (v : Addr) : (s.setXr n v).halted = s.halted := rfl
@[simp] theorem State.setXr_ioDeferred (s : State) (n : BitVec 4) (v : Addr) : (s.setXr n v).ioDeferred = s.ioDeferred := rfl
@[simp] theorem State.setXr_steals (s : State) (n : BitVec 4) (v : Addr) : (s.setXr n v).steals = s.steals := rfl
@[simp] theorem State.setXr_switches (s : State) (n : BitVec 4) (v : Addr) : (s.setXr n v).switches = s.switches := rfl
@[simp] theorem State.setXr_testSignal (s : State) (n : BitVec 4) (v : Addr) : (s.setXr n v).testSignal = s.testSignal := rfl
@[simp] theorem State.setXr_arrivals (s : State) (n : BitVec 4) (v : Addr) : (s.setXr n v).arrivals = s.arrivals := rfl
@[simp] theorem State.setXr_busIn (s : State) (n : BitVec 4) (v : Addr) : (s.setXr n v).busIn = s.busIn := rfl
@[simp] theorem State.setXr_ioLog (s : State) (n : BitVec 4) (v : Addr) : (s.setXr n v).ioLog = s.ioLog := rfl
@[simp] theorem State.setXr_draws (s : State) (n : BitVec 4) (v : Addr) : (s.setXr n v).draws = s.draws := rfl
@[simp] theorem State.advance_cfg (s : State) (k : Addr) : (s.advance k).cfg = s.cfg := rfl
@[simp] theorem State.advance_regA (s : State) (k : Addr) : (s.advance k).regA = s.regA := rfl
@[simp] theorem State.advance_regB (s : State) (k : Addr) : (s.advance k).regB = s.regB := rfl
@[simp] theorem State.advance_pc (s : State) (k : Addr) : (s.advance k).pc = s.pc + k := rfl
@[simp] theorem State.advance_ir (s : State) (k : Addr) : (s.advance k).ir = s.ir := rfl
@[simp] theorem State.advance_irHeld (s : State) (k : Addr) : (s.advance k).irHeld = s.irHeld := rfl
@[simp] theorem State.advance_oar (s : State) (k : Addr) : (s.advance k).oar = s.oar := rfl
@[simp] theorem State.advance_xrf (s : State) (k : Addr) : (s.advance k).xrf = s.xrf := rfl
@[simp] theorem State.advance_sr (s : State) (k : Addr) : (s.advance k).sr = s.sr := rfl
@[simp] theorem State.advance_mr (s : State) (k : Addr) : (s.advance k).mr = s.mr := rfl
@[simp] theorem State.advance_mem (s : State) (k : Addr) : (s.advance k).mem = s.mem := rfl
@[simp] theorem State.advance_pending (s : State) (k : Addr) : (s.advance k).pending = s.pending := rfl
@[simp] theorem State.advance_inService (s : State) (k : Addr) : (s.advance k).inService = s.inService := rfl
@[simp] theorem State.advance_holdoff (s : State) (k : Addr) : (s.advance k).holdoff = s.holdoff := rfl
@[simp] theorem State.advance_halted (s : State) (k : Addr) : (s.advance k).halted = s.halted := rfl
@[simp] theorem State.advance_ioDeferred (s : State) (k : Addr) : (s.advance k).ioDeferred = s.ioDeferred := rfl
@[simp] theorem State.advance_steals (s : State) (k : Addr) : (s.advance k).steals = s.steals := rfl
@[simp] theorem State.advance_switches (s : State) (k : Addr) : (s.advance k).switches = s.switches := rfl
@[simp] theorem State.advance_testSignal (s : State) (k : Addr) : (s.advance k).testSignal = s.testSignal := rfl
@[simp] theorem State.advance_arrivals (s : State) (k : Addr) : (s.advance k).arrivals = s.arrivals := rfl
@[simp] theorem State.advance_busIn (s : State) (k : Addr) : (s.advance k).busIn = s.busIn := rfl
@[simp] theorem State.advance_ioLog (s : State) (k : Addr) : (s.advance k).ioLog = s.ioLog := rfl
@[simp] theorem State.advance_draws (s : State) (k : Addr) : (s.advance k).draws = s.draws := rfl
@[simp] theorem State.drawn_cfg (s : State) : (s.drawn).cfg = s.cfg := rfl
@[simp] theorem State.drawn_regA (s : State) : (s.drawn).regA = s.regA := rfl
@[simp] theorem State.drawn_regB (s : State) : (s.drawn).regB = s.regB := rfl
@[simp] theorem State.drawn_pc (s : State) : (s.drawn).pc = s.pc := rfl
@[simp] theorem State.drawn_ir (s : State) : (s.drawn).ir = s.ir := rfl
@[simp] theorem State.drawn_irHeld (s : State) : (s.drawn).irHeld = s.irHeld := rfl
@[simp] theorem State.drawn_oar (s : State) : (s.drawn).oar = s.oar := rfl
@[simp] theorem State.drawn_xrf (s : State) : (s.drawn).xrf = s.xrf := rfl
@[simp] theorem State.drawn_sr (s : State) : (s.drawn).sr = s.sr := rfl
@[simp] theorem State.drawn_mr (s : State) : (s.drawn).mr = s.mr := rfl
@[simp] theorem State.drawn_mem (s : State) : (s.drawn).mem = s.mem := rfl
@[simp] theorem State.drawn_pending (s : State) : (s.drawn).pending = s.pending := rfl
@[simp] theorem State.drawn_inService (s : State) : (s.drawn).inService = s.inService := rfl
@[simp] theorem State.drawn_holdoff (s : State) : (s.drawn).holdoff = s.holdoff := rfl
@[simp] theorem State.drawn_halted (s : State) : (s.drawn).halted = s.halted := rfl
@[simp] theorem State.drawn_ioDeferred (s : State) : (s.drawn).ioDeferred = s.ioDeferred := rfl
@[simp] theorem State.drawn_steals (s : State) : (s.drawn).steals = s.steals := rfl
@[simp] theorem State.drawn_switches (s : State) : (s.drawn).switches = s.switches := rfl
@[simp] theorem State.drawn_testSignal (s : State) : (s.drawn).testSignal = s.testSignal := rfl
@[simp] theorem State.drawn_arrivals (s : State) : (s.drawn).arrivals = s.arrivals := rfl
@[simp] theorem State.drawn_busIn (s : State) : (s.drawn).busIn = s.busIn := rfl
@[simp] theorem State.drawn_ioLog (s : State) : (s.drawn).ioLog = s.ioLog := rfl
@[simp] theorem State.drawn_draws (s : State) : (s.drawn).draws = s.draws + 1 := rfl
@[simp] theorem State.setAB_cfg (s : State) (v : BitVec 64) : (s.setAB v).cfg = s.cfg := rfl
@[simp] theorem State.setAB_regA (s : State) (v : BitVec 64) : (s.setAB v).regA = v.extractLsb' 32 32 := rfl
@[simp] theorem State.setAB_regB (s : State) (v : BitVec 64) : (s.setAB v).regB = v.extractLsb' 0 32 := rfl
@[simp] theorem State.setAB_pc (s : State) (v : BitVec 64) : (s.setAB v).pc = s.pc := rfl
@[simp] theorem State.setAB_ir (s : State) (v : BitVec 64) : (s.setAB v).ir = s.ir := rfl
@[simp] theorem State.setAB_irHeld (s : State) (v : BitVec 64) : (s.setAB v).irHeld = s.irHeld := rfl
@[simp] theorem State.setAB_oar (s : State) (v : BitVec 64) : (s.setAB v).oar = s.oar := rfl
@[simp] theorem State.setAB_xrf (s : State) (v : BitVec 64) : (s.setAB v).xrf = s.xrf := rfl
@[simp] theorem State.setAB_sr (s : State) (v : BitVec 64) : (s.setAB v).sr = s.sr := rfl
@[simp] theorem State.setAB_mr (s : State) (v : BitVec 64) : (s.setAB v).mr = s.mr := rfl
@[simp] theorem State.setAB_mem (s : State) (v : BitVec 64) : (s.setAB v).mem = s.mem := rfl
@[simp] theorem State.setAB_pending (s : State) (v : BitVec 64) : (s.setAB v).pending = s.pending := rfl
@[simp] theorem State.setAB_inService (s : State) (v : BitVec 64) : (s.setAB v).inService = s.inService := rfl
@[simp] theorem State.setAB_holdoff (s : State) (v : BitVec 64) : (s.setAB v).holdoff = s.holdoff := rfl
@[simp] theorem State.setAB_halted (s : State) (v : BitVec 64) : (s.setAB v).halted = s.halted := rfl
@[simp] theorem State.setAB_ioDeferred (s : State) (v : BitVec 64) : (s.setAB v).ioDeferred = s.ioDeferred := rfl
@[simp] theorem State.setAB_steals (s : State) (v : BitVec 64) : (s.setAB v).steals = s.steals := rfl
@[simp] theorem State.setAB_switches (s : State) (v : BitVec 64) : (s.setAB v).switches = s.switches := rfl
@[simp] theorem State.setAB_testSignal (s : State) (v : BitVec 64) : (s.setAB v).testSignal = s.testSignal := rfl
@[simp] theorem State.setAB_arrivals (s : State) (v : BitVec 64) : (s.setAB v).arrivals = s.arrivals := rfl
@[simp] theorem State.setAB_busIn (s : State) (v : BitVec 64) : (s.setAB v).busIn = s.busIn := rfl
@[simp] theorem State.setAB_ioLog (s : State) (v : BitVec 64) : (s.setAB v).ioLog = s.ioLog := rfl
@[simp] theorem State.setAB_draws (s : State) (v : BitVec 64) : (s.setAB v).draws = s.draws := rfl
@[simp] theorem State.freeAB_cfg (s : State) : (s.freeAB).cfg = s.cfg := rfl
@[simp] theorem State.freeAB_regA (s : State) : (s.freeAB).regA = s.drawWord := rfl
@[simp] theorem State.freeAB_regB (s : State) : (s.freeAB).regB = Config.draw (s.draws + 1) := rfl
@[simp] theorem State.freeAB_pc (s : State) : (s.freeAB).pc = s.pc := rfl
@[simp] theorem State.freeAB_ir (s : State) : (s.freeAB).ir = s.ir := rfl
@[simp] theorem State.freeAB_irHeld (s : State) : (s.freeAB).irHeld = s.irHeld := rfl
@[simp] theorem State.freeAB_oar (s : State) : (s.freeAB).oar = s.oar := rfl
@[simp] theorem State.freeAB_xrf (s : State) : (s.freeAB).xrf = s.xrf := rfl
@[simp] theorem State.freeAB_sr (s : State) : (s.freeAB).sr = s.sr := rfl
@[simp] theorem State.freeAB_mr (s : State) : (s.freeAB).mr = s.mr := rfl
@[simp] theorem State.freeAB_mem (s : State) : (s.freeAB).mem = s.mem := rfl
@[simp] theorem State.freeAB_pending (s : State) : (s.freeAB).pending = s.pending := rfl
@[simp] theorem State.freeAB_inService (s : State) : (s.freeAB).inService = s.inService := rfl
@[simp] theorem State.freeAB_holdoff (s : State) : (s.freeAB).holdoff = s.holdoff := rfl
@[simp] theorem State.freeAB_halted (s : State) : (s.freeAB).halted = s.halted := rfl
@[simp] theorem State.freeAB_ioDeferred (s : State) : (s.freeAB).ioDeferred = s.ioDeferred := rfl
@[simp] theorem State.freeAB_steals (s : State) : (s.freeAB).steals = s.steals := rfl
@[simp] theorem State.freeAB_switches (s : State) : (s.freeAB).switches = s.switches := rfl
@[simp] theorem State.freeAB_testSignal (s : State) : (s.freeAB).testSignal = s.testSignal := rfl
@[simp] theorem State.freeAB_arrivals (s : State) : (s.freeAB).arrivals = s.arrivals := rfl
@[simp] theorem State.freeAB_busIn (s : State) : (s.freeAB).busIn = s.busIn := rfl
@[simp] theorem State.freeAB_ioLog (s : State) : (s.freeAB).ioLog = s.ioLog := rfl
@[simp] theorem State.freeAB_draws (s : State) : (s.freeAB).draws = s.draws + 2 := rfl
@[simp] theorem State.setSrBit_cfg (s : State) (n : Nat) (b : Bool) : (s.setSrBit n b).cfg = s.cfg := rfl
@[simp] theorem State.setSrBit_regA (s : State) (n : Nat) (b : Bool) : (s.setSrBit n b).regA = s.regA := rfl
@[simp] theorem State.setSrBit_regB (s : State) (n : Nat) (b : Bool) : (s.setSrBit n b).regB = s.regB := rfl
@[simp] theorem State.setSrBit_pc (s : State) (n : Nat) (b : Bool) : (s.setSrBit n b).pc = s.pc := rfl
@[simp] theorem State.setSrBit_ir (s : State) (n : Nat) (b : Bool) : (s.setSrBit n b).ir = s.ir := rfl
@[simp] theorem State.setSrBit_irHeld (s : State) (n : Nat) (b : Bool) : (s.setSrBit n b).irHeld = s.irHeld := rfl
@[simp] theorem State.setSrBit_oar (s : State) (n : Nat) (b : Bool) : (s.setSrBit n b).oar = s.oar := rfl
@[simp] theorem State.setSrBit_xrf (s : State) (n : Nat) (b : Bool) : (s.setSrBit n b).xrf = s.xrf := rfl
@[simp] theorem State.setSrBit_sr (s : State) (n : Nat) (b : Bool) : (s.setSrBit n b).sr = withBit s.sr n b := rfl
@[simp] theorem State.setSrBit_mr (s : State) (n : Nat) (b : Bool) : (s.setSrBit n b).mr = s.mr := rfl
@[simp] theorem State.setSrBit_mem (s : State) (n : Nat) (b : Bool) : (s.setSrBit n b).mem = s.mem := rfl
@[simp] theorem State.setSrBit_pending (s : State) (n : Nat) (b : Bool) : (s.setSrBit n b).pending = s.pending := rfl
@[simp] theorem State.setSrBit_inService (s : State) (n : Nat) (b : Bool) : (s.setSrBit n b).inService = s.inService := rfl
@[simp] theorem State.setSrBit_holdoff (s : State) (n : Nat) (b : Bool) : (s.setSrBit n b).holdoff = s.holdoff := rfl
@[simp] theorem State.setSrBit_halted (s : State) (n : Nat) (b : Bool) : (s.setSrBit n b).halted = s.halted := rfl
@[simp] theorem State.setSrBit_ioDeferred (s : State) (n : Nat) (b : Bool) : (s.setSrBit n b).ioDeferred = s.ioDeferred := rfl
@[simp] theorem State.setSrBit_steals (s : State) (n : Nat) (b : Bool) : (s.setSrBit n b).steals = s.steals := rfl
@[simp] theorem State.setSrBit_switches (s : State) (n : Nat) (b : Bool) : (s.setSrBit n b).switches = s.switches := rfl
@[simp] theorem State.setSrBit_testSignal (s : State) (n : Nat) (b : Bool) : (s.setSrBit n b).testSignal = s.testSignal := rfl
@[simp] theorem State.setSrBit_arrivals (s : State) (n : Nat) (b : Bool) : (s.setSrBit n b).arrivals = s.arrivals := rfl
@[simp] theorem State.setSrBit_busIn (s : State) (n : Nat) (b : Bool) : (s.setSrBit n b).busIn = s.busIn := rfl
@[simp] theorem State.setSrBit_ioLog (s : State) (n : Nat) (b : Bool) : (s.setSrBit n b).ioLog = s.ioLog := rfl
@[simp] theorem State.setSrBit_draws (s : State) (n : Nat) (b : Bool) : (s.setSrBit n b).draws = s.draws := rfl

end Sys2Proof.Machine
end

