-- ==== Sys2Proof/Laws/Memory.lean ====
section
/-! SUPPORT. The laws of memory: a read after a write, the canonical form, and what the accesses of the CPU answer. -/

namespace Sys2Proof.Machine

/-! ### Cells -/

theorem Memory.byte_put_same (m : Memory) (k : Nat) (v : Byte) (h : m.wf = true) : (m.put k v).byte k = v := by
  have low : ∀ (m : Memory) (j k : Nat), Memory.wfAbove j m = true → k < j → Memory.byte m k = Memory.unlisted := by
    intro m
    induction m with
    | nil => intros; rfl
    | cons c t ih =>
      intro j k hw hk
      simp only [Memory.wfAbove, Bool.and_eq_true, decide_eq_true_eq, bne_iff_ne] at hw
      rw [Memory.byte, if_neg (by omega), ih (c.1 + 1) k hw.2 (by omega)]
  have go : ∀ (m : Memory) (j : Nat), Memory.wfAbove j m = true → (m.put k v).byte k = v := by
    intro m
    induction m with
    | nil => intro j _; by_cases hv : v = Memory.unlisted <;> simp [Memory.put, Memory.byte, hv]
    | cons c t ih =>
      intro j hw
      simp only [Memory.wfAbove, Bool.and_eq_true, decide_eq_true_eq, bne_iff_ne] at hw
      rw [Memory.put]
      split
      · split
        · rename_i h1 h2
          rw [h2, Memory.byte, if_neg (by omega), low t (c.1 + 1) k hw.2 (by omega)]
        · simp [Memory.byte]
      · split
        · rename_i h1 h2
          split
          · rename_i h3
            rw [h3, low t (c.1 + 1) k hw.2 (by omega)]
          · simp [Memory.byte]
        · rename_i h1 h2
          rw [Memory.byte, if_neg h2, ih _ hw.2]
  exact go m 0 h

theorem Memory.byte_put_ne (m : Memory) {k k' : Nat} (v : Byte) (h : k' ≠ k) : (m.put k v).byte k' = m.byte k' := by
  induction m with
  | nil => by_cases hv : v = Memory.unlisted <;> simp [Memory.put, Memory.byte, hv, h]
  | cons c t ih =>
    rw [Memory.put]
    split
    · split
      · rfl
      · simp [Memory.byte, h]
    · split
      · rename_i h1 h2
        subst h2
        split <;> simp [Memory.byte, h]
      · simp [Memory.byte, ih]

theorem Memory.wfAbove_put (m : Memory) (j k : Nat) (v : Byte) (h : Memory.wfAbove j m = true) (hk : j ≤ k) :
    Memory.wfAbove j (m.put k v) = true := by
  induction m generalizing j with
  | nil => by_cases hv : v = Memory.unlisted <;> simp [Memory.put, Memory.wfAbove, hv, hk]
  | cons c t ih =>
    have hw := h
    simp only [Memory.wfAbove, Bool.and_eq_true, decide_eq_true_eq, bne_iff_ne] at hw
    rw [Memory.put]
    split
    · split
      · exact h
      · rename_i h1 h2
        simp only [Memory.wfAbove, Bool.and_eq_true, decide_eq_true_eq, bne_iff_ne]
        exact ⟨⟨hk, h2⟩, ⟨by omega, hw.1.2⟩, hw.2⟩
    · split
      · rename_i h1 h2
        split
        · have mono : ∀ (t : Memory) (a b : Nat), b ≤ a → Memory.wfAbove a t = true → Memory.wfAbove b t = true := by
            intro t a b hab ht
            cases t with
            | nil => rfl
            | cons d u =>
              simp only [Memory.wfAbove, Bool.and_eq_true, decide_eq_true_eq, bne_iff_ne] at ht ⊢
              exact ⟨⟨by omega, ht.1.2⟩, ht.2⟩
          exact mono t (c.1 + 1) j (by omega) hw.2
        · rename_i h3
          simp only [Memory.wfAbove, Bool.and_eq_true, decide_eq_true_eq, bne_iff_ne]
          exact ⟨⟨hk, h3⟩, by rw [h2]; exact hw.2⟩
      · rename_i h1 h2
        simp only [Memory.wfAbove, Bool.and_eq_true, decide_eq_true_eq, bne_iff_ne]
        exact ⟨hw.1, ih (c.1 + 1) hw.2 (by omega)⟩

/-- `put` keeps the canonical form. -/
theorem Memory.wf_put (m : Memory) (k : Nat) (v : Byte) (h : m.wf = true) : (m.put k v).wf = true :=
  Memory.wfAbove_put m 0 k v h (Nat.zero_le _)

/-- `putHalf` keeps the canonical form. -/
theorem Memory.wf_putHalf (m : Memory) (a : Addr) (v : Half) (h : m.wf = true) : (m.putHalf a v).wf = true :=
  Memory.wf_put _ _ _ (Memory.wf_put _ _ _ h)

/-- `putWord` keeps the canonical form. -/
theorem Memory.wf_putWord (m : Memory) (a : Addr) (v : Word32) (h : m.wf = true) : (m.putWord a v).wf = true :=
  Memory.wf_putHalf _ _ _ (Memory.wf_putHalf _ _ _ h)

/-- The reset memory has the canonical form. -/
theorem State.reset_mem_wf : State.reset.mem.wf = true := rfl

/-! ### Halfwords -/

theorem halves_append (v : Half) : v.extractLsb' 8 8 ++ v.extractLsb' 0 8 = v := by
  apply BitVec.eq_of_getLsbD_eq
  intro i hi
  rw [BitVec.getLsbD_append]
  by_cases h : i < 8
  · simp [h]
  · rw [if_neg h, BitVec.getLsbD_extractLsb', decide_eq_true (by omega), Bool.true_and]
    congr 1
    omega

theorem Memory.byte_putHalf_ne (m : Memory) (a : Addr) (v : Half) {k : Nat} (h : k < 2 * a.toNat ∨ 2 * a.toNat + 2 ≤ k) :
    (m.putHalf a v).byte k = m.byte k := by
  rw [Memory.putHalf, Memory.byte_put_ne _ _ (by omega), Memory.byte_put_ne _ _ (by omega)]

theorem Memory.half_putHalf_same (m : Memory) (a : Addr) (v : Half) (h : m.wf = true) : (m.putHalf a v).half a = v := by
  rw [Memory.half, Memory.putHalf, Memory.byte_put_same _ _ _ (Memory.wf_put _ _ _ h),
    Memory.byte_put_ne _ _ (by omega), Memory.byte_put_same _ _ _ h]
  exact halves_append v

theorem Memory.half_putHalf_ne (m : Memory) {a b : Addr} (v : Half) (h : b ≠ a) : (m.putHalf a v).half b = m.half b := by
  have hn : b.toNat ≠ a.toNat := fun e => h (BitVec.eq_of_toNat_eq e)
  rw [Memory.half, Memory.half, Memory.byte_putHalf_ne _ _ _ (by omega), Memory.byte_putHalf_ne _ _ _ (by omega)]

theorem add_one_ne (a : Addr) : a + 1 ≠ a := by
  intro h
  have h2 : (1 : Addr) = 0 := by
    have := congrArg (fun x => x - a) h
    simp at this
  exact absurd h2 (by decide)

theorem Memory.half_putWord_high (m : Memory) (a : Addr) (v : Word32) (h : m.wf = true) :
    (m.putWord a v).half a = v.extractLsb' 16 16 := by
  rw [Memory.putWord, Memory.half_putHalf_ne _ _ (add_one_ne a).symm, Memory.half_putHalf_same _ _ _ h]

theorem Memory.half_putWord_low (m : Memory) (a : Addr) (v : Word32) (h : m.wf = true) :
    (m.putWord a v).half (a + 1) = v.extractLsb' 0 16 := by
  rw [Memory.putWord, Memory.half_putHalf_same _ _ _ (Memory.wf_putHalf _ _ _ h)]

theorem Memory.half_putWord_ne (m : Memory) {a b : Addr} (v : Word32) (h0 : b ≠ a) (h1 : b ≠ a + 1) :
    (m.putWord a v).half b = m.half b := by
  rw [Memory.putWord, Memory.half_putHalf_ne _ _ h1, Memory.half_putHalf_ne _ _ h0]

/-! ### Accesses of the CPU -/

theorem finish_next {x : Except Fault State} {t : State} : finish x = .next t ↔ x = .ok t := by
  cases x <;> simp [finish]

theorem bind_ok {α β : Type} {x : Except Fault α} {f : α → Except Fault β} {b : β} :
    (x >>= f) = .ok b ↔ ∃ a, x = .ok a ∧ f a = .ok b := by
  cases x with
  | error e => simp [bind, Except.bind]
  | ok a => simp [bind, Except.bind]

theorem State.read16_ok {s : State} {a : Addr} {v : Half} :
    s.read16 a = .ok v ↔ s.isPresent a = true ∧ s.mem.half a = v := by
  unfold State.read16
  split <;> simp_all

theorem State.read32_ok {s : State} {a : Addr} {v : Word32} :
    s.read32 a = .ok v ↔ isOdd a = false ∧ s.isPresent a = true ∧ s.isPresent (a + 1) = true ∧
      s.mem.half a ++ s.mem.half (a + 1) = v := by
  unfold State.read32
  split
  · simp_all
  · simp only [bind_ok, State.read16_ok, Except.ok.injEq]
    constructor
    · rintro ⟨_, ⟨h1, rfl⟩, _, ⟨h2, rfl⟩, rfl⟩; exact ⟨by simp_all, h1, h2, rfl⟩
    · rintro ⟨_, h1, h2, rfl⟩; exact ⟨_, ⟨h1, rfl⟩, _, ⟨h2, rfl⟩, rfl⟩

/-- What a halfword store can do. -/
theorem State.write16_ok {s t : State} {a : Addr} {v : Half} :
    s.write16 a v = .ok t ↔ s.isPresent a = true ∧ s.isProtected a = false ∧ t = s.setMem (s.mem.putHalf a v) := by
  unfold State.write16
  cases h1 : s.isPresent a <;> cases h2 : s.isProtected a <;> simp [@eq_comm _ t]

/-- What a fullword store can do. -/
theorem State.write32_ok {s t : State} {a : Addr} {v : Word32} :
    s.write32 a v = .ok t ↔ isOdd a = false ∧ s.isPresent a = true ∧ s.isPresent (a + 1) = true ∧
      s.isProtected a = false ∧ s.isProtected (a + 1) = false ∧ t = s.setMem (s.mem.putWord a v) := by
  unfold State.write32
  split
  · simp_all
  · simp only [bind_ok, State.write16_ok]
    constructor
    · rintro ⟨_, ⟨h1, h2, rfl⟩, h3, h4, rfl⟩; exact ⟨by simp_all, h1, h3, h2, h4, rfl⟩
    · rintro ⟨_, h1, h2, h3, h4, rfl⟩; exact ⟨_, ⟨h1, h3, rfl⟩, h2, h4, rfl⟩

/-- What a halfword read of an instruction can do. -/
theorem State.load16_ok {s t : State} {a : Addr} {v : Half} :
    s.load16 a = .ok (v, t) ↔ s.ioTurn.read16 a = .ok v ∧ t = s.ioTurn := by
  simp [State.load16, bind_ok, @eq_comm _ t]

/-- What a fullword read of an instruction can do. -/
theorem State.load32_ok {s t : State} {a : Addr} {v : Word32} :
    s.load32 a = .ok (v, t) ↔ s.ioTurn.read32 a = .ok v ∧ t = s.ioTurn := by
  simp [State.load32, bind_ok, @eq_comm _ t]

/-- What a double word read of an instruction can do. -/
theorem State.load64_ok {s t : State} {a : Addr} {v : BitVec 64} :
    s.load64 a = .ok (v, t) ↔ ∃ hi lo, s.ioTurn.read32 a = .ok hi ∧ s.ioTurn.ioTurn.read32 (a + 2) = .ok lo ∧
      v = hi ++ lo ∧ t = s.ioTurn.ioTurn := by
  simp only [State.load64, bind_ok, Prod.exists, State.load32_ok, Except.ok.injEq, Prod.mk.injEq]
  constructor
  · rintro ⟨hi, _, ⟨h1, rfl⟩, lo, _, ⟨h2, rfl⟩, rfl, rfl⟩; exact ⟨hi, lo, h1, h2, rfl, rfl⟩
  · rintro ⟨hi, lo, h1, h2, rfl, rfl⟩; exact ⟨hi, _, ⟨h1, rfl⟩, lo, _, ⟨h2, rfl⟩, rfl, rfl⟩

/-- What a store of either width can do. -/
theorem State.storeBack_ok {s t : State} {a : Addr} {half : Bool} {v : Word32} :
    s.storeBack a half v = .ok t ↔ (half = true ∧ (s.storeTurn true a).write16 a (v.extractLsb' 16 16) = .ok t) ∨
      (half = false ∧ (s.storeTurn false a).write32 a v = .ok t) := by
  unfold State.storeBack State.store16 State.store32
  cases half <;> simp

/-- What the store of a return address can do. -/
theorem State.storeReturn_ok {s t : State} {a : Addr} {v : Word32} :
    s.storeReturn a v = .ok t ↔ isOdd a = false ∧ s.isPresent a = true ∧ s.isPresent (a + 1) = true ∧
      t = s.ioTurn.setMem (s.ioTurn.mem.putWord a v) := by
  unfold State.storeReturn
  split
  · simp_all
  · split
    · rename_i h1 h2
      simp only [Bool.and_eq_true] at h2
      exact ⟨fun h => ⟨by simpa using h1, h2.1, h2.2, (Except.ok.inj h).symm⟩, fun h => by rw [h.2.2.2]⟩
    · rename_i h1 h2
      simp only [Bool.and_eq_true, not_and] at h2
      constructor
      · intro h; cases h
      · rintro ⟨_, h3, h4, _⟩; exact absurd h4 (h2 h3)

end Sys2Proof.Machine
end

