-- ==== Sys2Proof/Laws/Operations.lean ====
section
/-! SUPPORT. For each shared operation, once, everything it can do: if it answers a next state, then which. -/

namespace Sys2Proof.Machine

theorem loadRegister_next {set : State → Word32 → State} {t : State} {ref : RefAccess} {len : Addr} :
    loadRegister set ref len = .next t ↔ ∃ r s v s1, ref = .ok (r, s) ∧ s.operand r = .ok (v, s1) ∧
      t = (set (s1.setOar r.addr) v).advance len := by
  simp only [loadRegister, finish_next, bind_ok, Prod.exists, Except.ok.injEq, @eq_comm _ t]
  constructor
  · rintro ⟨r, s, h1, v, s1, h2, h3⟩; exact ⟨r, s, v, s1, h1, h2, h3⟩
  · rintro ⟨r, s, v, s1, h1, h2, h3⟩; exact ⟨r, s, h1, v, s1, h2, h3⟩

theorem storeRegister_next {v : Word32} {t : State} {ref : RefAccess} {len : Addr} :
    storeRegister v ref len = .next t ↔ ∃ r s s1, ref = .ok (r, s) ∧ r.imm = false ∧
      (s.setOar r.addr).storeBack r.addr r.half v = .ok s1 ∧ t = s1.advance len := by
  simp only [storeRegister, finish_next, bind_ok, Prod.exists]
  constructor
  · rintro ⟨r, s, h1, h2⟩
    split at h2
    · cases h2
    · obtain ⟨s1, h3, h4⟩ := bind_ok.1 h2
      exact ⟨r, s, s1, h1, by simp_all, h3, (Except.ok.inj h4).symm⟩
  · rintro ⟨r, s, s1, h1, h2, h3, rfl⟩
    exact ⟨r, s, h1, by rw [h2]; exact bind_ok.2 ⟨s1, h3, rfl⟩⟩

theorem storeHalfA_next {t : State} {ref : RefAccess} {len : Addr} :
    storeHalfA ref len = .next t ↔ ∃ r s s1, ref = .ok (r, s) ∧ r.imm = false ∧
      (s.setOar r.addr).store16 r.addr (s.regA.extractLsb' 16 16) = .ok s1 ∧ t = s1.advance len := by
  simp only [storeHalfA, finish_next, bind_ok, Prod.exists]
  constructor
  · rintro ⟨r, s, h1, h2⟩
    split at h2
    · cases h2
    · obtain ⟨s1, h3, h4⟩ := bind_ok.1 h2
      exact ⟨r, s, s1, h1, by simp_all, h3, (Except.ok.inj h4).symm⟩
  · rintro ⟨r, s, s1, h1, h2, h3, rfl⟩
    exact ⟨r, s, h1, by rw [h2]; exact bind_ok.2 ⟨s1, h3, rfl⟩⟩

theorem storeWord_next {w : Word32} {t : State} {ref : RefAccess} {len : Addr} :
    storeWord w ref len = .next t ↔ ∃ r s s1, ref = .ok (r, s) ∧ r.imm = false ∧
      (s.setOar r.addr).store32 r.addr w = .ok s1 ∧ t = s1.drawn.advance len := by
  simp only [storeWord, finish_next, bind_ok, Prod.exists]
  constructor
  · rintro ⟨r, s, h1, h2⟩
    split at h2
    · cases h2
    · obtain ⟨s1, h3, h4⟩ := bind_ok.1 h2
      exact ⟨r, s, s1, h1, by simp_all, h3, (Except.ok.inj h4).symm⟩
  · rintro ⟨r, s, s1, h1, h2, h3, rfl⟩
    exact ⟨r, s, h1, by rw [h2]; exact bind_ok.2 ⟨s1, h3, rfl⟩⟩

theorem loadIndex_next {n : BitVec 4} {t : State} {ref : RefAccess} {len : Addr} :
    loadIndex n ref len = .next t ↔ ∃ r s v s1, ref = .ok (r, s) ∧ s.indexOperand r = .ok (v, s1) ∧
      t = ((s1.setOar r.addr).setXr n v).advance len := by
  simp only [loadIndex, finish_next, bind_ok, Prod.exists, Except.ok.injEq, @eq_comm _ t]
  constructor
  · rintro ⟨r, s, h1, v, s1, h2, h3⟩; exact ⟨r, s, v, s1, h1, h2, h3⟩
  · rintro ⟨r, s, v, s1, h1, h2, h3⟩; exact ⟨r, s, h1, v, s1, h2, h3⟩

theorem loadAddress_next {t : State} {ref : RefAccess} {len : Addr} :
    loadAddress ref len = .next t ↔ ∃ r s, ref = .ok (r, s) ∧
      t = ((s.setOar r.addr).setA (r.addr.zeroExtend 32)).advance len := by
  simp only [loadAddress, finish_next, bind_ok, Prod.exists, Except.ok.injEq, @eq_comm _ t]

theorem aluRegister_next {set : State → Word32 → State} {op : AluOp} {t : State} {ref : RefAccess} {len : Addr} :
    aluRegister set op ref len = .next t ↔ ∃ r s v s1, ref = .ok (r, s) ∧ s.operand r = .ok (v, s1) ∧
      t = ((set (s1.setOar r.addr) (op s1 v).1).setSr (op s1 v).2).advance len := by
  simp only [aluRegister, finish_next, bind_ok, Prod.exists, Except.ok.injEq, @eq_comm _ t]
  constructor
  · rintro ⟨r, s, h1, v, s1, h2, h3⟩; exact ⟨r, s, v, s1, h1, h2, h3⟩
  · rintro ⟨r, s, v, s1, h1, h2, h3⟩; exact ⟨r, s, h1, v, s1, h2, h3⟩

theorem aluReturn_next {op : AluOp} {t : State} {ref : RefAccess} {len : Addr} :
    aluReturn op ref len = .next t ↔ ∃ r s v s1, ref = .ok (r, s) ∧ s.operand r = .ok (v, s1) ∧ r.imm = false ∧
      ((s1.inFast r.addr = true ∧ ∃ s2, (s1.setOar r.addr).storeBack r.addr r.half (op s1 v).1 = .ok s2 ∧
          t = (s2.setSr (op s1 v).2).advance len) ∨
        (s1.inFast r.addr = false ∧ t = (s1.setOar r.addr).advance len)) := by
  simp only [aluReturn, finish_next, bind_ok, Prod.exists]
  constructor
  · rintro ⟨r, s, h1, v, s1, h2, h3⟩
    refine ⟨r, s, v, s1, h1, h2, ?_⟩
    split at h3
    · cases h3
    · rename_i h4
      split at h3
      · rename_i h5
        obtain ⟨s2, h6, h7⟩ := bind_ok.1 h3
        exact ⟨by simpa using h4, .inl ⟨h5, s2, h6, (Except.ok.inj h7).symm⟩⟩
      · rename_i h5
        exact ⟨by simpa using h4, .inr ⟨by simpa using h5, (Except.ok.inj h3).symm⟩⟩
  · rintro ⟨r, s, v, s1, h1, h2, h3, h4⟩
    refine ⟨r, s, h1, v, s1, h2, ?_⟩
    rcases h4 with ⟨h5, s2, h6, rfl⟩ | ⟨h5, rfl⟩
    · rw [h3, h5]; exact bind_ok.2 ⟨s2, h6, rfl⟩
    · rw [h3, h5]; rfl

theorem regOperation_next {op : RegOp} {t : State} {ref : RefAccess} {len : Addr} :
    regOperation op ref len = .next t ↔ ∃ r s v s1, ref = .ok (r, s) ∧ s.operand r = .ok (v, s1) ∧
      t = (op (s1.setOar r.addr) r.half v).advance len := by
  simp only [regOperation, finish_next, bind_ok, Prod.exists, Except.ok.injEq, @eq_comm _ t]
  constructor
  · rintro ⟨r, s, h1, v, s1, h2, h3⟩; exact ⟨r, s, v, s1, h1, h2, h3⟩
  · rintro ⟨r, s, v, s1, h1, h2, h3⟩; exact ⟨r, s, h1, v, s1, h2, h3⟩

theorem regReturn_next {op : RegOp} {t : State} {ref : RefAccess} {len : Addr} :
    regReturn op ref len = .next t ↔ ∃ r s v s1, ref = .ok (r, s) ∧ s.operand r = .ok (v, s1) ∧ r.imm = false ∧
      ((s1.inFast r.addr = true ∧ ∃ s2, (op (s1.setOar r.addr) r.half v).storeBack r.addr r.half
          (op (s1.setOar r.addr) r.half v).regA = .ok s2 ∧ t = s2.advance len) ∨
        (s1.inFast r.addr = false ∧ t = (op (s1.setOar r.addr) r.half v).advance len)) := by
  simp only [regReturn, finish_next, bind_ok, Prod.exists]
  constructor
  · rintro ⟨r, s, h1, v, s1, h2, h3⟩
    refine ⟨r, s, v, s1, h1, h2, ?_⟩
    split at h3
    · cases h3
    · rename_i h4
      split at h3
      · rename_i h5
        obtain ⟨s2, h6, h7⟩ := bind_ok.1 h3
        exact ⟨by simpa using h4, .inl ⟨h5, s2, h6, (Except.ok.inj h7).symm⟩⟩
      · rename_i h5
        exact ⟨by simpa using h4, .inr ⟨by simpa using h5, (Except.ok.inj h3).symm⟩⟩
  · rintro ⟨r, s, v, s1, h1, h2, h3, h4⟩
    refine ⟨r, s, h1, v, s1, h2, ?_⟩
    rcases h4 with ⟨h5, s2, h6, rfl⟩ | ⟨h5, rfl⟩
    · rw [h3, h5]; exact bind_ok.2 ⟨s2, h6, rfl⟩
    · rw [h3, h5]; rfl

theorem floatRegister_next {n : Nat} {load : State → Addr → Except Fault (BitVec n × State)}
    {op : State → BitVec n → State} {t : State} {ref : RefAccess} {len : Addr} :
    floatRegister load op ref len = .next t ↔ ∃ r s v s1, ref = .ok (r, s) ∧ r.imm = false ∧
      load s r.addr = .ok (v, s1) ∧ t = (op (s1.setOar r.addr) v).advance len := by
  simp only [floatRegister, finish_next, bind_ok, Prod.exists]
  constructor
  · rintro ⟨r, s, h1, h2⟩
    split at h2
    · cases h2
    · obtain ⟨⟨v, s1⟩, h3, h4⟩ := bind_ok.1 h2
      exact ⟨r, s, v, s1, h1, by simp_all, h3, (Except.ok.inj h4).symm⟩
  · rintro ⟨r, s, v, s1, h1, h2, h3, rfl⟩
    exact ⟨r, s, h1, by rw [h2]; exact bind_ok.2 ⟨(v, s1), h3, rfl⟩⟩

theorem floatReturn_next {n : Nat} {load : State → Addr → Except Fault (BitVec n × State)}
    {op : State → BitVec n → State} {t : State} {ref : RefAccess} {len : Addr} :
    floatReturn load op ref len = .next t ↔ ∃ r s v s1, ref = .ok (r, s) ∧ r.imm = false ∧
      load s r.addr = .ok (v, s1) ∧
      ((s1.inFast r.addr = true ∧ ∃ s2, (op (s1.setOar r.addr) v).store32 r.addr (op (s1.setOar r.addr) v).regA =
          .ok s2 ∧ t = s2.advance len) ∨
        (s1.inFast r.addr = false ∧ t = (op (s1.setOar r.addr) v).advance len)) := by
  simp only [floatReturn, finish_next, bind_ok, Prod.exists]
  constructor
  · rintro ⟨r, s, h1, h2⟩
    split at h2
    · cases h2
    · rename_i h0
      obtain ⟨⟨v, s1⟩, h3, h4⟩ := bind_ok.1 h2
      refine ⟨r, s, v, s1, h1, by simpa using h0, h3, ?_⟩
      dsimp only at h4
      split at h4
      · rename_i h5
        obtain ⟨s2, h6, h7⟩ := bind_ok.1 h4
        exact .inl ⟨h5, s2, h6, (Except.ok.inj h7).symm⟩
      · rename_i h5
        exact .inr ⟨by simpa using h5, (Except.ok.inj h4).symm⟩
  · rintro ⟨r, s, v, s1, h1, h2, h3, h4⟩
    refine ⟨r, s, h1, ?_⟩
    rw [h2]
    refine bind_ok.2 ⟨(v, s1), h3, ?_⟩
    dsimp only
    rcases h4 with ⟨h5, s2, h6, rfl⟩ | ⟨h5, rfl⟩
    · rw [h5]; exact bind_ok.2 ⟨s2, h6, rfl⟩
    · rw [h5]; rfl

theorem returnAddress_next {t : State} {ref : RefAccess} :
    returnAddress ref = .next t ↔ ∃ r s w s1, ref = .ok (r, s) ∧ s.load32 r.addr = .ok (w, s1) ∧
      t = (s1.setOar r.addr).interruptReturn r.addr w := by
  simp only [returnAddress, finish_next, bind_ok, Prod.exists, Except.ok.injEq, @eq_comm _ t]
  constructor
  · rintro ⟨r, s, h1, v, s1, h2, h3⟩; exact ⟨r, s, v, s1, h1, h2, h3⟩
  · rintro ⟨r, s, v, s1, h1, h2, h3⟩; exact ⟨r, s, h1, v, s1, h2, h3⟩

theorem skipMasked_next {t : State} {ref : RefAccess} {len : Addr} :
    skipMasked ref len = .next t ↔ ∃ r s v s1, ref = .ok (r, s) ∧ s.operand r = .ok (v, s1) ∧
      t = (s1.setOar r.addr).advance (if s.regA &&& v != 0#32 then len + 2 else len) := by
  simp only [skipMasked, finish_next, bind_ok, Prod.exists, Except.ok.injEq, @eq_comm _ t]
  constructor
  · rintro ⟨r, s, h1, v, s1, h2, h3⟩; exact ⟨r, s, v, s1, h1, h2, h3⟩
  · rintro ⟨r, s, v, s1, h1, h2, h3⟩; exact ⟨r, s, h1, v, s1, h2, h3⟩

theorem testIndex_next {p : Addr → Addr → Bool} {n : BitVec 4} {t : State} {ref : RefAccess} {len : Addr} :
    testIndex p n ref len = .next t ↔ ∃ r s v s1, ref = .ok (r, s) ∧ s.indexOperand r = .ok (v, s1) ∧
      t = (s1.setOar r.addr).advance (if p (s.xr n) v then len + 2 else len) := by
  simp only [testIndex, finish_next, bind_ok, Prod.exists, Except.ok.injEq, @eq_comm _ t]
  constructor
  · rintro ⟨r, s, h1, v, s1, h2, h3⟩; exact ⟨r, s, v, s1, h1, h2, h3⟩
  · rintro ⟨r, s, v, s1, h1, h2, h3⟩; exact ⟨r, s, h1, v, s1, h2, h3⟩

theorem modifyIndex_next {op : Addr → Addr → Addr} {n : BitVec 4} {t : State} {ref : RefAccess} {len : Addr} :
    modifyIndex op n ref len = .next t ↔ ∃ r s v s1, ref = .ok (r, s) ∧ s.indexOperand r = .ok (v, s1) ∧
      t = ((s1.setOar r.addr).setXr n (op (s.xr n) v)).advance len := by
  simp only [modifyIndex, finish_next, bind_ok, Prod.exists, Except.ok.injEq, @eq_comm _ t]
  constructor
  · rintro ⟨r, s, h1, v, s1, h2, h3⟩; exact ⟨r, s, v, s1, h1, h2, h3⟩
  · rintro ⟨r, s, v, s1, h1, h2, h3⟩; exact ⟨r, s, h1, v, s1, h2, h3⟩

theorem noHalf_ok {ref : RefAccess} {r : Ref} {s : State} :
    noHalf ref = .ok (r, s) ↔ ref = .ok (r, s) ∧ r.half = false := by
  simp only [noHalf, bind_ok, Prod.exists]
  constructor
  · rintro ⟨q, u, h1, h2⟩
    split at h2
    · cases h2
    · cases h2; exact ⟨h1, by simp_all⟩
  · rintro ⟨h1, h2⟩; exact ⟨r, s, h1, by rw [h2]; rfl⟩

theorem noImmediateHalf_ok {ref : RefAccess} {r : Ref} {s : State} :
    noImmediateHalf ref = .ok (r, s) ↔ ref = .ok (r, s) ∧ r.imm = false ∧ r.half = false := by
  simp only [noImmediateHalf, bind_ok, Prod.exists]
  constructor
  · rintro ⟨q, u, h1, h2⟩
    split at h2
    · cases h2
    · split at h2
      · cases h2
      · cases h2; exact ⟨h1, by simp_all, by simp_all⟩
  · rintro ⟨h1, h2, h3⟩; exact ⟨r, s, h1, by rw [h2, h3]; rfl⟩

theorem noHalfLogical_ok {ref : RefAccess} {r : Ref} {s : State} :
    noHalfLogical ref = .ok (r, s) ↔ ref = .ok (r, s) ∧ r.half = false := by
  simp only [noHalfLogical, bind_ok, Prod.exists]
  constructor
  · rintro ⟨q, u, h1, h2⟩
    split at h2
    · cases h2
    · cases h2; exact ⟨h1, by simp_all⟩
  · rintro ⟨h1, h2⟩; exact ⟨r, s, h1, by rw [h2]; rfl⟩

theorem noDesignator_ok {ref : RefAccess} {r : Ref} {s : State} :
    noDesignator ref = .ok (r, s) ↔ ref = .ok (r, s) ∧ r.imm = false ∧ r.half = false := by
  simp only [noDesignator, bind_ok, Prod.exists]
  constructor
  · rintro ⟨q, u, h1, h2⟩
    split at h2
    · cases h2
    · cases h2; exact ⟨h1, by simp_all⟩
  · rintro ⟨h1, h2, h3⟩; exact ⟨r, s, h1, by rw [h2, h3]; rfl⟩

/-- What one word of a block transfer can do. -/
theorem State.moveWord_ok {s t : State} {fast src dst : Addr} :
    s.moveWord fast src dst = .ok t ↔ s.inFast fast = true ∧ ∃ w s1, s.load32 src = .ok (w, s1) ∧
      s1.store32 dst (w &&& s.regA) = .ok t := by
  unfold State.moveWord
  cases h : s.inFast fast
  · simp
  · simp only [Bool.not_true, Bool.false_eq_true, if_false, true_and, bind_ok, Prod.exists]

theorem blockTransfer_next {toFast : Bool} {s t : State} {n : Nat} :
    blockTransfer toFast s n = .next t ↔ ∃ s1, s.moveBlock toFast (s.regB.extractLsb' 0 18) (s.xr 0#4) n = .ok s1 ∧
      t = ((s1.setB (s.regB + BitVec.ofNat 32 (2 * n))).setXr 0#4 (s.xr 0#4 + BitVec.ofNat 18 (2 * n))).advance 1 := by
  simp only [blockTransfer, finish_next, bind_ok, Except.ok.injEq, @eq_comm _ t]

@[simp] theorem State.transferLoc_fin (s : State) (l : Fin 16) : s.transferLoc l = s.cfg.transferAt.get l :=
  congrArg s.cfg.transferAt.get (Fin.ext (Nat.mod_eq_of_lt l.isLt))

@[simp] theorem State.returnLoc_fin (s : State) (l : Fin 16) : s.returnLoc l = s.cfg.returnAt.get l :=
  congrArg s.cfg.returnAt.get (Fin.ext (Nat.mod_eq_of_lt l.isLt))

/-- The levels that an address completes. -/
theorem State.returnLevels_getLsbD (s : State) (ea : Addr) {n k : Nat} (hn : n ≤ 16) :
    (s.returnLevels ea n).getLsbD k = (decide (k < n) && decide (s.returnLoc k = ea)) := by
  induction n with
  | zero => simp [State.returnLevels]
  | succ n ih =>
    have hb : (1#16 <<< n).getLsbD k = decide (k = n) := by
      rw [BitVec.getLsbD_shiftLeft]
      by_cases h : k < n
      · simp [h, Nat.ne_of_lt h]
      · by_cases h2 : k = n
        · subst h2; simp; omega
        · have h3 : k - n ≠ 0 := by omega
          simp [BitVec.getLsbD_one, h3, h2]
    have hd : decide (k < n + 1) = (decide (k < n) || decide (k = n)) := by
      rw [← Bool.decide_or]; exact decide_eq_decide.2 (by omega)
    unfold State.returnLevels
    split
    · rename_i h
      rw [withBit, if_pos rfl, BitVec.getLsbD_or, hb, ih (by omega), hd]
      by_cases h2 : k = n
      · subst h2; simp [h]
      · simp [h2]
    · rename_i h
      rw [ih (by omega), hd]
      by_cases h2 : k = n
      · subst h2; simp [h]
      · simp [h2]

/-- What RTA leaves in service. -/
theorem State.completeLevel_getLsbD (s : State) (ea : Addr) {k : Nat} (hk : k < 16) :
    (s.completeLevel ea).inService.getLsbD k = (s.inService.getLsbD k && decide (s.returnLoc k ≠ ea)) := by
  rw [State.completeLevel, State.setInService_inService, BitVec.getLsbD_and, BitVec.getLsbD_not,
    State.returnLevels_getLsbD s ea (Nat.le_refl 16)]
  simp [hk]

/-- What entry to an interrupt level can do. -/
theorem State.enterInterrupt_ok {s t : State} {l : Nat} :
    s.enterInterrupt l = .ok t ↔ s.isPresent (s.transferLoc l) = true ∧ s.isPresent (s.transferLoc l + 1) = true ∧
      ∃ s1, s.storeReturn (s.returnLoc l) (s.drawWord.extractLsb' 0 14 ++ s.pc) = .ok s1 ∧
        t = ((((((s1.drawn.setPc (s.transferLoc l)).setPending (withBit s.pending l false)).setInService
          (withBit s.inService l true)).setHoldoff s.cfg.intHoldoff).setHalted false).setIr s.ir none) := by
  unfold State.enterInterrupt
  split
  · rename_i h
    simp only [Bool.and_eq_true] at h
    simp only [bind_ok, Except.ok.injEq, @eq_comm _ t, h, true_and]
  · rename_i h
    simp only [Bool.and_eq_true, not_and] at h
    constructor
    · intro h; cases h
    · rintro ⟨h1, h2, _⟩; exact absurd h2 (h h1)

/-- What the recognition point can do. -/
theorem State.recognise_ok {s t : State} :
    s.recognise = .ok t ↔
      (s.holdoff - 1 = 0 ∧ s.srBit 15 = true ∧ ∃ l, s.highestBelow 16 = some l ∧
        (s.setHoldoff (s.holdoff - 1)).enterInterrupt l = .ok t) ∨
      (¬(s.holdoff - 1 = 0 ∧ s.srBit 15 = true ∧ (s.highestBelow 16).isSome = true) ∧
        t = s.setHoldoff (s.holdoff - 1)) := by
  have hb : (s.setHoldoff (s.holdoff - 1)).highestBelow 16 = s.highestBelow 16 := rfl
  have hs : (s.setHoldoff (s.holdoff - 1)).srBit 15 = s.srBit 15 := rfl
  unfold State.recognise
  simp only [State.setHoldoff_holdoff, hb, hs]
  split
  · rename_i h
    cases hl : s.highestBelow 16 with
    | none => simp [h, @eq_comm _ t]
    | some l => simp [h]
  · rename_i h
    constructor
    · intro h1
      exact .inr ⟨fun h2 => h ⟨h2.1, h2.2.1⟩, (Except.ok.inj h1).symm⟩
    · rintro (⟨h1, h2, _⟩ | ⟨_, h2⟩)
      · exact absurd ⟨h1, h2⟩ h
      · rw [h2]

/-- What a step can do. -/
theorem step_next {s t : State} :
    step s = .next t ↔ (s.halted = true ∧ s.conclude = .ok t) ∨
      (s.halted = false ∧ ∃ i s1 s2, s.fetch = .ok (i, s1) ∧ exec i s1 = .next s2 ∧ s2.conclude = .ok t) := by
  unfold step
  cases hh : s.halted
  · simp only [Bool.false_eq_true, if_false, false_and, false_or, true_and]
    cases hf : s.fetch with
    | error e => simp
    | ok p =>
      obtain ⟨i, s1⟩ := p
      cases he : exec i s1 with
      | next s2 =>
        simp only [he, finish_next]
        constructor
        · intro h; exact ⟨i, s1, s2, rfl, he, h⟩
        · rintro ⟨_, _, s3, h1, h2, h3⟩
          cases h1
          rw [he] at h2
          cases h2
          exact h3
      | fault f =>
        simp only [he]
        constructor
        · intro h; cases h
        · rintro ⟨_, _, s3, h1, h2, _⟩; cases h1; rw [he] at h2; cases h2
      | refused r =>
        simp only [he]
        constructor
        · intro h; cases h
        · rintro ⟨_, _, s3, h1, h2, _⟩; cases h1; rw [he] at h2; cases h2
  · simp [finish_next]

end Sys2Proof.Machine
end

