-- ==== Sys2Proof/Laws/Placement.lean ====
section
/-! SUPPORT. Where memory may change: only present memory ever holds anything, and every operation that stores keeps the
canonical form. -/

namespace Sys2Proof.Machine

theorem Memory.within_put {rs : List AddrRange} {m : Memory} {k : Nat} {v : Byte} (hm : m.within rs = true)
    (hk : (decide (k < 2 ^ 19) && inRanges rs (BitVec.ofNat 18 (k / 2))) = true) : (m.put k v).within rs = true := by
  induction m with
  | nil =>
    rw [Memory.put]
    split
    · rfl
    · simpa [Memory.within] using hk
  | cons c t ih =>
    have hm2 : (decide (c.1 < 2 ^ 19) && inRanges rs (BitVec.ofNat 18 (c.1 / 2))) = true ∧
        Memory.within rs t = true := by
      simpa only [Memory.within, List.all_cons, Bool.and_eq_true] using hm
    have cons : ∀ (d : Host.Cell) (u : Memory),
        (decide (d.1 < 2 ^ 19) && inRanges rs (BitVec.ofNat 18 (d.1 / 2))) = true → u.within rs = true →
        Memory.within rs (d :: u) = true := by
      intro d u h1 h2
      rw [Memory.within, List.all_cons, h1, Bool.true_and]
      exact h2
    rw [Memory.put]
    split
    · split
      · exact hm
      · exact cons _ _ hk hm
    · split
      · split
        · exact hm2.2
        · exact cons _ _ hk hm2.2
      · exact cons _ _ hm2.1 (ih hm2.2)

theorem Memory.within_putHalf {rs : List AddrRange} {m : Memory} {a : Addr} {v : Half} (hm : m.within rs = true)
    (ha : inRanges rs a = true) : (m.putHalf a v).within rs = true := by
  have hlt := a.isLt
  have e0 : 2 * a.toNat / 2 = a.toNat := by omega
  have e1 : (2 * a.toNat + 1) / 2 = a.toNat := by omega
  have eq : BitVec.ofNat 18 a.toNat = a := by simp
  refine Memory.within_put (Memory.within_put hm ?_) ?_
  · rw [e0, eq, ha, decide_eq_true (by omega)]
    rfl
  · rw [e1, eq, ha, decide_eq_true (by omega)]
    rfl

theorem Memory.within_putWord {rs : List AddrRange} {m : Memory} {a : Addr} {v : Word32} (hm : m.within rs = true)
    (ha : inRanges rs a = true) (ha1 : inRanges rs (a + 1) = true) : (m.putWord a v).within rs = true :=
  Memory.within_putHalf (Memory.within_putHalf hm ha) ha1

/-- The memory that holds a table word keeps the canonical form. -/
theorem Memory.wf_placeWord (m : Memory) (a : Addr) (nbits w : Nat) (h : m.wf = true) :
    (m.placeWord a nbits w).wf = true := by
  unfold Memory.placeWord
  split
  · exact Memory.wf_putHalf _ _ _ (Memory.wf_putHalf _ _ _ h)
  · exact Memory.wf_putHalf _ _ _ (Memory.wf_putHalf _ _ _ h)

/-- A store of the CPU changes only memory, and only unprotected present memory. -/
structure Stores (s t : State) : Prop where
  /-- Only memory differs. -/
  frame : t = s.setMem t.mem
  /-- The canonical form is kept. -/
  canonical : s.mem.wf = true → t.mem.wf = true
  /-- Only present memory is written. -/
  placed : s.mem.within s.cfg.present = true → t.mem.within s.cfg.present = true
  /-- Protected and absent halfwords read as before. -/
  guarded : ∀ a, s.isProtected a = true ∨ s.isPresent a = false → t.mem.half a = s.mem.half a

theorem Stores.refl (s : State) : Stores s s := ⟨rfl, id, id, fun _ _ => rfl⟩

theorem Stores.trans {s t u : State} (h : Stores s t) (g : Stores t u) : Stores s u := by
  have hc : t.cfg = s.cfg := by rw [h.frame]; rfl
  have hp : ∀ a, t.isPresent a = s.isPresent a := fun a => by rw [State.isPresent, hc, State.isPresent]
  have hq : ∀ a, t.isProtected a = s.isProtected a := fun a => by rw [State.isProtected, hc, State.isProtected]
  refine ⟨?_, g.canonical ∘ h.canonical, ?_, fun a ha => ?_⟩
  · rw [g.frame, h.frame]
    rfl
  · intro hs
    have := g.placed
    rw [hc] at this
    exact this (h.placed hs)
  · rw [g.guarded a (by rw [hp, hq]; exact ha), h.guarded a ha]

theorem State.write16_stores {s t : State} {a : Addr} {v : Half} (h : s.write16 a v = .ok t) : Stores s t := by
  obtain ⟨h1, h2, rfl⟩ := State.write16_ok.1 h
  refine ⟨rfl, Memory.wf_putHalf _ _ _, fun hm => Memory.within_putHalf hm h1, fun b hb => ?_⟩
  refine Memory.half_putHalf_ne _ _ fun e => ?_
  subst e
  rw [h1, h2] at hb
  simp at hb

theorem State.write32_stores {s t : State} {a : Addr} {v : Word32} (h : s.write32 a v = .ok t) : Stores s t := by
  obtain ⟨_, h1, h2, h3, h4, rfl⟩ := State.write32_ok.1 h
  refine ⟨rfl, Memory.wf_putWord _ _ _, fun hm => Memory.within_putWord hm h1 h2, fun b hb => ?_⟩
  refine Memory.half_putWord_ne _ _ (fun e => ?_) (fun e => ?_)
  · subst e
    rw [h1, h3] at hb
    simp at hb
  · subst e
    rw [h2, h4] at hb
    simp at hb

/-- An I/O unit write keeps the canonical form and stays in present memory. -/
theorem State.ioWrite_mem (s : State) (w : IoWrite) :
    (s.mem.wf = true → (s.ioWrite w).mem.wf = true) ∧
      (s.mem.within s.cfg.present = true → (s.ioWrite w).mem.within s.cfg.present = true) := by
  unfold State.ioWrite
  split
  · rename_i h
    simp only [Bool.and_eq_true] at h
    exact ⟨fun hw => Memory.wf_putWord s.mem w.addr w.data hw,
      fun hw => Memory.within_putWord (v := w.data) hw h.1.2 h.2⟩
  · exact ⟨id, id⟩

end Sys2Proof.Machine
end

