-- ==== Sys2Proof/Laws/Completion.lean ====
section
/-! SUPPORT. Where the accesses complete, and what a store leaves in memory. -/

namespace Sys2Proof.Machine

/-! ### What a store leaves -/

theorem sameOutside_putHalf (m : Memory) (a : Addr) (v : Half) : sameOutside m (m.putHalf a v) (2 * a.toNat) 2 :=
  fun _ hk => Memory.byte_putHalf_ne _ _ _ (by omega)

/-- The address after an even one does not wrap. -/
theorem toNat_succ_of_even (a : Addr) (h : isOdd a = false) : (a + 1).toNat = a.toNat + 1 := by
  have h2 : a.toNat % 2 = 0 := by
    rw [isOdd, BitVec.getLsbD, Nat.testBit_zero] at h
    simpa using h
  have hlt := a.isLt
  rw [BitVec.toNat_add]
  simp only [show (1 : Addr).toNat = 1 from rfl]
  omega

theorem sameOutside_putWord (m : Memory) (a : Addr) (v : Word32) (h : isOdd a = false) :
    sameOutside m (m.putWord a v) (2 * a.toNat) 4 := by
  intro k hk
  have h1 := toNat_succ_of_even a h
  rw [Memory.putWord, Memory.byte_putHalf_ne _ _ _ (by omega), Memory.byte_putHalf_ne _ _ _ (by omega)]

/-- A fullword put in canonical memory is stored there. -/
theorem storedWord_putWord (m : Memory) (a : Addr) (v : Word32) (hw : m.wf = true) (h : isOdd a = false) :
    storedWord m (m.putWord a v) a v := by
  refine ⟨?_, sameOutside_putWord m a v h⟩
  rw [Memory.word, Memory.half_putWord_high _ _ _ hw, Memory.half_putWord_low _ _ _ hw]
  exact halves_join v

/-- A halfword put in canonical memory is stored there. -/
theorem storedHalf_putHalf (m : Memory) (a : Addr) (v : Half) (hw : m.wf = true) :
    storedHalf m (m.putHalf a v) a v :=
  ⟨Memory.half_putHalf_same _ _ _ hw, sameOutside_putHalf m a v⟩

/-! ### Accesses -/

theorem State.read32_of_readable {s : State} {a : Addr} (h : s.readable32 a = true) :
    s.read32 a = .ok (s.mem.word a) := by
  simp only [State.readable32, Bool.and_eq_true, Bool.not_eq_true'] at h
  exact State.read32_ok.2 ⟨h.1.1, h.1.2, h.2, rfl⟩

theorem State.isOdd_of_writable32 {s : State} {a : Addr} (h : s.writable32 a = true) : isOdd a = false := by
  simp only [State.writable32, Bool.and_eq_true, Bool.not_eq_true'] at h
  exact h.1.1

theorem State.write16_of_writable {s : State} {a : Addr} (v : Half) (h : s.writable16 a = true) :
    s.write16 a v = .ok (s.setMem (s.mem.putHalf a v)) := by
  simp only [State.writable16, Bool.and_eq_true, Bool.not_eq_true'] at h
  exact State.write16_ok.2 ⟨h.1, h.2, rfl⟩

theorem State.write32_of_writable {s : State} {a : Addr} (v : Word32) (h : s.writable32 a = true) :
    s.write32 a v = .ok (s.setMem (s.mem.putWord a v)) := by
  simp only [State.writable32, State.writable16, Bool.and_eq_true, Bool.not_eq_true'] at h
  exact State.write32_ok.2 ⟨h.1.1, h.1.2.1, h.2.1, h.1.2.2, h.2.2, rfl⟩

/-- A long instruction without indirection: its fields are its reference (30_encoding.md R114). -/
theorem State.longRef_direct (s : State) (desig : Bool) (index : Addr) (m h : Bool) (m16 : BitVec 16) :
    s.longRef desig index false m h m16 = .ok (⟨m16.zeroExtend 18 + index, m, h⟩, s) := rfl

end Sys2Proof.Machine
end

