-- ==== Sys2Proof/Laws/PerInstr.lean ====
section
/-! SUPPORT. One statement about every instruction as syntax: the length rule agrees with the width of its word. -/

namespace Sys2Proof.Laws

/-- The first halfword of an instruction's word is one the length rule calls long exactly where the word is a fullword
(30_encoding.md R100). -/
def Encoding.Statement (i : Instr) : Prop := (encode i).ruled = true

theorem Encoding.emi :
    Encoding.Statement .emi :=
  encodeNonMemory_ruled _ _
theorem Encoding.dpi :
    Encoding.Statement .dpi :=
  encodeNonMemory_ruled _ _
theorem Encoding.dmi :
    Encoding.Statement .dmi :=
  encodeNonMemory_ruled _ _
theorem Encoding.epi :
    Encoding.Statement .epi :=
  encodeNonMemory_ruled _ _
theorem Encoding.hlt :
    Encoding.Statement .hlt :=
  encodeNonMemory_ruled _ _
theorem Encoding.setf (f : BitVec 4) :
    Encoding.Statement (.setf f) :=
  encodeNonMemory_ruled _ _
theorem Encoding.rstf (f : BitVec 4) :
    Encoding.Statement (.rstf f) :=
  encodeNonMemory_ruled _ _
theorem Encoding.cfx :
    Encoding.Statement .cfx :=
  encodeNonMemory_ruled _ _
theorem Encoding.cxf :
    Encoding.Statement .cxf :=
  encodeNonMemory_ruled _ _
theorem Encoding.eab :
    Encoding.Statement .eab :=
  encodeNonMemory_ruled _ _
theorem Encoding.shm :
    Encoding.Statement .shm :=
  encodeNonMemory_ruled _ _
theorem Encoding.rhm :
    Encoding.Statement .rhm :=
  encodeNonMemory_ruled _ _
theorem Encoding.lxa (f : BitVec 4) :
    Encoding.Statement (.lxa f) :=
  encodeNonMemory_ruled _ _
theorem Encoding.nop :
    Encoding.Statement .nop :=
  encodeNonMemory_ruled _ _
theorem Encoding.slld (x1 : BitVec 3) (j : BitVec 5) :
    Encoding.Statement (.slld x1 j) :=
  encodeShift_ruled _ _ _ _ _
theorem Encoding.slcd (x1 : BitVec 3) (j : BitVec 5) :
    Encoding.Statement (.slcd x1 j) :=
  encodeShift_ruled _ _ _ _ _
theorem Encoding.sll (x1 : BitVec 3) (j : BitVec 5) :
    Encoding.Statement (.sll x1 j) :=
  encodeShift_ruled _ _ _ _ _
theorem Encoding.srld (x1 : BitVec 3) (j : BitVec 5) :
    Encoding.Statement (.srld x1 j) :=
  encodeShift_ruled _ _ _ _ _
theorem Encoding.srad (x1 : BitVec 3) (j : BitVec 5) :
    Encoding.Statement (.srad x1 j) :=
  encodeShift_ruled _ _ _ _ _
theorem Encoding.srcd (x1 : BitVec 3) (j : BitVec 5) :
    Encoding.Statement (.srcd x1 j) :=
  encodeShift_ruled _ _ _ _ _
theorem Encoding.sra (x1 : BitVec 3) (j : BitVec 5) :
    Encoding.Statement (.sra x1 j) :=
  encodeShift_ruled _ _ _ _ _
theorem Encoding.src (x1 : BitVec 3) (j : BitVec 5) :
    Encoding.Statement (.src x1 j) :=
  encodeShift_ruled _ _ _ _ _
theorem Encoding.mfm (x1 : BitVec 3) (j : BitVec 7) :
    Encoding.Statement (.mfm x1 j) :=
  encodeBlock_ruled _ _ _
theorem Encoding.mmf (x1 : BitVec 3) (j : BitVec 7) :
    Encoding.Statement (.mmf x1 j) :=
  encodeBlock_ruled _ _ _
theorem Encoding.jru (p : Bool) (m7 : BitVec 7) :
    Encoding.Statement (.jru p m7) :=
  encodeShortJump_ruled _ _ _
theorem Encoding.jrn (p : Bool) (m7 : BitVec 7) :
    Encoding.Statement (.jrn p m7) :=
  encodeShortJump_ruled _ _ _
theorem Encoding.jrg (p : Bool) (m7 : BitVec 7) :
    Encoding.Statement (.jrg p m7) :=
  encodeShortJump_ruled _ _ _
theorem Encoding.jrl (p : Bool) (m7 : BitVec 7) :
    Encoding.Statement (.jrl p m7) :=
  encodeShortJump_ruled _ _ _
theorem Encoding.js (x1 : BitVec 3) (m18 : BitVec 18) :
    Encoding.Statement (.js x1 m18) :=
  encodeLongJump_ruled _ _ _
theorem Encoding.jgf (f : BitVec 4) (m18 : BitVec 18) :
    Encoding.Statement (.jgf f m18) :=
  encodeLongJump_ruled _ _ _
theorem Encoding.jgs (n : BitVec 4) (m18 : BitVec 18) :
    Encoding.Statement (.jgs n m18) :=
  encodeLongJump_ruled _ _ _
theorem Encoding.jgw (sw : BitVec 2) (m18 : BitVec 18) :
    Encoding.Statement (.jgw sw m18) :=
  encodeLongJump_ruled _ _ _
theorem Encoding.jgu (m18 : BitVec 18) :
    Encoding.Statement (.jgu m18) :=
  encodeLongJump_ruled _ _ _
theorem Encoding.jan (m18 : BitVec 18) :
    Encoding.Statement (.jan m18) :=
  encodeLongJump_ruled _ _ _
theorem Encoding.jag (m18 : BitVec 18) :
    Encoding.Statement (.jag m18) :=
  encodeLongJump_ruled _ _ _
theorem Encoding.jal (m18 : BitVec 18) :
    Encoding.Statement (.jal m18) :=
  encodeLongJump_ruled _ _ _
theorem Encoding.doa (c : Bool) (dc : BitVec 6) (k : Bool) :
    Encoding.Statement (.doa c dc k) :=
  encodeShortIo_ruled _ _ _ _
theorem Encoding.dia (c : Bool) (dc : BitVec 6) (k : Bool) :
    Encoding.Statement (.dia c dc k) :=
  encodeShortIo_ruled _ _ _ _
theorem Encoding.dom (c : Bool) (dc : BitVec 6) (i : Bool) (k : Bool) (m16 : BitVec 16) :
    Encoding.Statement (.dom c dc i k m16) :=
  encodeLongIo_ruled _ _ _ _ _ _
theorem Encoding.dim (c : Bool) (dc : BitVec 6) (i : Bool) (k : Bool) (m16 : BitVec 16) :
    Encoding.Statement (.dim c dc i k m16) :=
  encodeLongIo_ruled _ _ _ _ _ _
theorem Encoding.ldaS (x1 : BitVec 3) (m7 : BitVec 7) :
    Encoding.Statement (.ldaS x1 m7) :=
  encodeShortMem_ruled _ _ _
theorem Encoding.ldaL (x1 : BitVec 3) (x2 : BitVec 4) (i : Bool) (m : Bool) (m16 : BitVec 16) :
    Encoding.Statement (.ldaL x1 x2 i m m16) :=
  encodeLongMem_ruled _ _ _ _ _ _ _ rfl
theorem Encoding.ldahL (x1 : BitVec 3) (x2 : BitVec 4) (i : Bool) (m : Bool) (m16 : BitVec 16) :
    Encoding.Statement (.ldahL x1 x2 i m m16) :=
  encodeLongMem_ruled _ _ _ _ _ _ _ rfl
theorem Encoding.ldbS (x1 : BitVec 3) (m7 : BitVec 7) :
    Encoding.Statement (.ldbS x1 m7) :=
  encodeShortMem_ruled _ _ _
theorem Encoding.ldbL (x1 : BitVec 3) (x2 : BitVec 4) (i : Bool) (m : Bool) (m16 : BitVec 16) :
    Encoding.Statement (.ldbL x1 x2 i m m16) :=
  encodeLongMem_ruled _ _ _ _ _ _ _ rfl
theorem Encoding.ldbhL (x1 : BitVec 3) (x2 : BitVec 4) (i : Bool) (m : Bool) (m16 : BitVec 16) :
    Encoding.Statement (.ldbhL x1 x2 i m m16) :=
  encodeLongMem_ruled _ _ _ _ _ _ _ rfl
theorem Encoding.staS (x1 : BitVec 3) (m7 : BitVec 7) :
    Encoding.Statement (.staS x1 m7) :=
  encodeShortMem_ruled _ _ _
theorem Encoding.staL (x1 : BitVec 3) (x2 : BitVec 4) (i : Bool) (m : Bool) (m16 : BitVec 16) :
    Encoding.Statement (.staL x1 x2 i m m16) :=
  encodeLongMem_ruled _ _ _ _ _ _ _ rfl
theorem Encoding.stahL (x1 : BitVec 3) (x2 : BitVec 4) (i : Bool) (m : Bool) (m16 : BitVec 16) :
    Encoding.Statement (.stahL x1 x2 i m m16) :=
  encodeLongMem_ruled _ _ _ _ _ _ _ rfl
theorem Encoding.stbS (x1 : BitVec 3) (m7 : BitVec 7) :
    Encoding.Statement (.stbS x1 m7) :=
  encodeShortMem_ruled _ _ _
theorem Encoding.stbL (x1 : BitVec 3) (x2 : BitVec 4) (i : Bool) (m : Bool) (m16 : BitVec 16) :
    Encoding.Statement (.stbL x1 x2 i m m16) :=
  encodeLongMem_ruled _ _ _ _ _ _ _ rfl
theorem Encoding.stbhL (x1 : BitVec 3) (x2 : BitVec 4) (i : Bool) (m : Bool) (m16 : BitVec 16) :
    Encoding.Statement (.stbhL x1 x2 i m m16) :=
  encodeLongMem_ruled _ _ _ _ _ _ _ rfl
theorem Encoding.stxS (x1 : BitVec 3) (m7 : BitVec 7) :
    Encoding.Statement (.stxS x1 m7) :=
  encodeShortMem_ruled _ _ _
theorem Encoding.stxL (x1 : BitVec 3) (x2 : BitVec 4) (i : Bool) (m : Bool) (h : Bool) (m16 : BitVec 16) :
    Encoding.Statement (.stxL x1 x2 i m h m16) :=
  encodeLongMem_ruled _ _ _ _ _ _ _ rfl
theorem Encoding.ldxS (x1 : BitVec 3) (m7 : BitVec 7) :
    Encoding.Statement (.ldxS x1 m7) :=
  encodeShortMem_ruled _ _ _
theorem Encoding.ldxL (x1 : BitVec 3) (x2 : BitVec 4) (i : Bool) (m : Bool) (h : Bool) (m16 : BitVec 16) :
    Encoding.Statement (.ldxL x1 x2 i m h m16) :=
  encodeLongMem_ruled _ _ _ _ _ _ _ rfl
theorem Encoding.laeS (x1 : BitVec 3) (m7 : BitVec 7) :
    Encoding.Statement (.laeS x1 m7) :=
  encodeShortMem_ruled _ _ _
theorem Encoding.laeL (x1 : BitVec 3) (x2 : BitVec 4) (i : Bool) (m : Bool) (h : Bool) (m16 : BitVec 16) :
    Encoding.Statement (.laeL x1 x2 i m h m16) :=
  encodeLongMem_ruled _ _ _ _ _ _ _ rfl
theorem Encoding.sthS (x1 : BitVec 3) (m7 : BitVec 7) :
    Encoding.Statement (.sthS x1 m7) :=
  encodeShortMem_ruled _ _ _
theorem Encoding.sthL (x1 : BitVec 3) (x2 : BitVec 4) (i : Bool) (m : Bool) (h : Bool) (m16 : BitVec 16) :
    Encoding.Statement (.sthL x1 x2 i m h m16) :=
  encodeLongMem_ruled _ _ _ _ _ _ _ rfl
theorem Encoding.rtaS (x1 : BitVec 3) (m7 : BitVec 7) :
    Encoding.Statement (.rtaS x1 m7) :=
  encodeShortMem_ruled _ _ _
theorem Encoding.rtaL (x1 : BitVec 3) (x2 : BitVec 4) (i : Bool) (m : Bool) (h : Bool) (m16 : BitVec 16) :
    Encoding.Statement (.rtaL x1 x2 i m h m16) :=
  encodeLongMem_ruled _ _ _ _ _ _ _ rfl
theorem Encoding.samS (x1 : BitVec 3) (m7 : BitVec 7) :
    Encoding.Statement (.samS x1 m7) :=
  encodeShortMem_ruled _ _ _
theorem Encoding.samL (x1 : BitVec 3) (x2 : BitVec 4) (i : Bool) (m : Bool) (h : Bool) (m16 : BitVec 16) :
    Encoding.Statement (.samL x1 x2 i m h m16) :=
  encodeLongMem_ruled _ _ _ _ _ _ _ rfl
theorem Encoding.icnS (x1 : BitVec 3) (m7 : BitVec 7) :
    Encoding.Statement (.icnS x1 m7) :=
  encodeShortMem_ruled _ _ _
theorem Encoding.icnL (x1 : BitVec 3) (x2 : BitVec 4) (i : Bool) (m : Bool) (m16 : BitVec 16) :
    Encoding.Statement (.icnL x1 x2 i m m16) :=
  encodeLongMem_ruled _ _ _ _ _ _ _ rfl
theorem Encoding.iclL (x1 : BitVec 3) (x2 : BitVec 4) (i : Bool) (m : Bool) (m16 : BitVec 16) :
    Encoding.Statement (.iclL x1 x2 i m m16) :=
  encodeLongMem_ruled _ _ _ _ _ _ _ rfl
theorem Encoding.imnS (x1 : BitVec 3) (m7 : BitVec 7) :
    Encoding.Statement (.imnS x1 m7) :=
  encodeShortMem_ruled _ _ _
theorem Encoding.imnL (x1 : BitVec 3) (x2 : BitVec 4) (i : Bool) (m : Bool) (m16 : BitVec 16) :
    Encoding.Statement (.imnL x1 x2 i m m16) :=
  encodeLongMem_ruled _ _ _ _ _ _ _ rfl
theorem Encoding.impL (x1 : BitVec 3) (x2 : BitVec 4) (i : Bool) (m : Bool) (m16 : BitVec 16) :
    Encoding.Statement (.impL x1 x2 i m m16) :=
  encodeLongMem_ruled _ _ _ _ _ _ _ rfl
theorem Encoding.ldsL (x1 : BitVec 3) (x2 : BitVec 4) (i : Bool) (m : Bool) (m16 : BitVec 16) :
    Encoding.Statement (.ldsL x1 x2 i m m16) :=
  encodeLongMem_ruled _ _ _ _ _ _ _ rfl
theorem Encoding.stsL (x1 : BitVec 3) (x2 : BitVec 4) (i : Bool) (m : Bool) (m16 : BitVec 16) :
    Encoding.Statement (.stsL x1 x2 i m m16) :=
  encodeLongMem_ruled _ _ _ _ _ _ _ rfl
theorem Encoding.stiL (x1 : BitVec 3) (x2 : BitVec 4) (i : Bool) (m : Bool) (m16 : BitVec 16) :
    Encoding.Statement (.stiL x1 x2 i m m16) :=
  encodeLongMem_ruled _ _ _ _ _ _ _ rfl
theorem Encoding.ldiL (x1 : BitVec 3) (x2 : BitVec 4) (i : Bool) (m : Bool) (m16 : BitVec 16) :
    Encoding.Statement (.ldiL x1 x2 i m m16) :=
  encodeLongMem_ruled _ _ _ _ _ _ _ rfl
theorem Encoding.aduS (x1 : BitVec 3) (m7 : BitVec 7) :
    Encoding.Statement (.aduS x1 m7) :=
  encodeShortMem_ruled _ _ _
theorem Encoding.aduL (x1 : BitVec 3) (x2 : BitVec 4) (i : Bool) (m : Bool) (m16 : BitVec 16) :
    Encoding.Statement (.aduL x1 x2 i m m16) :=
  encodeLongMem_ruled _ _ _ _ _ _ _ rfl
theorem Encoding.aduhL (x1 : BitVec 3) (x2 : BitVec 4) (i : Bool) (m : Bool) (m16 : BitVec 16) :
    Encoding.Statement (.aduhL x1 x2 i m m16) :=
  encodeLongMem_ruled _ _ _ _ _ _ _ rfl
theorem Encoding.adurS (m7 : BitVec 7) :
    Encoding.Statement (.adurS m7) :=
  encodeShortMem_ruled _ _ _
theorem Encoding.adurL (x2 : BitVec 4) (i : Bool) (m : Bool) (m16 : BitVec 16) :
    Encoding.Statement (.adurL x2 i m m16) :=
  encodeLongMem_ruled _ _ _ _ _ _ _ rfl
theorem Encoding.aduhrL (x2 : BitVec 4) (i : Bool) (m : Bool) (m16 : BitVec 16) :
    Encoding.Statement (.aduhrL x2 i m m16) :=
  encodeLongMem_ruled _ _ _ _ _ _ _ rfl
theorem Encoding.adlS (x1 : BitVec 3) (m7 : BitVec 7) :
    Encoding.Statement (.adlS x1 m7) :=
  encodeShortMem_ruled _ _ _
theorem Encoding.adlL (x1 : BitVec 3) (x2 : BitVec 4) (i : Bool) (m : Bool) (m16 : BitVec 16) :
    Encoding.Statement (.adlL x1 x2 i m m16) :=
  encodeLongMem_ruled _ _ _ _ _ _ _ rfl
theorem Encoding.adlhL (x1 : BitVec 3) (x2 : BitVec 4) (i : Bool) (m : Bool) (m16 : BitVec 16) :
    Encoding.Statement (.adlhL x1 x2 i m m16) :=
  encodeLongMem_ruled _ _ _ _ _ _ _ rfl
theorem Encoding.adlrS (m7 : BitVec 7) :
    Encoding.Statement (.adlrS m7) :=
  encodeShortMem_ruled _ _ _
theorem Encoding.adlrL (x2 : BitVec 4) (i : Bool) (m : Bool) (m16 : BitVec 16) :
    Encoding.Statement (.adlrL x2 i m m16) :=
  encodeLongMem_ruled _ _ _ _ _ _ _ rfl
theorem Encoding.adlhrL (x2 : BitVec 4) (i : Bool) (m : Bool) (m16 : BitVec 16) :
    Encoding.Statement (.adlhrL x2 i m m16) :=
  encodeLongMem_ruled _ _ _ _ _ _ _ rfl
theorem Encoding.sbuS (x1 : BitVec 3) (m7 : BitVec 7) :
    Encoding.Statement (.sbuS x1 m7) :=
  encodeShortMem_ruled _ _ _
theorem Encoding.sbuL (x1 : BitVec 3) (x2 : BitVec 4) (i : Bool) (m : Bool) (m16 : BitVec 16) :
    Encoding.Statement (.sbuL x1 x2 i m m16) :=
  encodeLongMem_ruled _ _ _ _ _ _ _ rfl
theorem Encoding.sbuhL (x1 : BitVec 3) (x2 : BitVec 4) (i : Bool) (m : Bool) (m16 : BitVec 16) :
    Encoding.Statement (.sbuhL x1 x2 i m m16) :=
  encodeLongMem_ruled _ _ _ _ _ _ _ rfl
theorem Encoding.sburS (m7 : BitVec 7) :
    Encoding.Statement (.sburS m7) :=
  encodeShortMem_ruled _ _ _
theorem Encoding.sburL (x2 : BitVec 4) (i : Bool) (m : Bool) (m16 : BitVec 16) :
    Encoding.Statement (.sburL x2 i m m16) :=
  encodeLongMem_ruled _ _ _ _ _ _ _ rfl
theorem Encoding.sbuhrL (x2 : BitVec 4) (i : Bool) (m : Bool) (m16 : BitVec 16) :
    Encoding.Statement (.sbuhrL x2 i m m16) :=
  encodeLongMem_ruled _ _ _ _ _ _ _ rfl
theorem Encoding.sblS (x1 : BitVec 3) (m7 : BitVec 7) :
    Encoding.Statement (.sblS x1 m7) :=
  encodeShortMem_ruled _ _ _
theorem Encoding.sblL (x1 : BitVec 3) (x2 : BitVec 4) (i : Bool) (m : Bool) (m16 : BitVec 16) :
    Encoding.Statement (.sblL x1 x2 i m m16) :=
  encodeLongMem_ruled _ _ _ _ _ _ _ rfl
theorem Encoding.sblhL (x1 : BitVec 3) (x2 : BitVec 4) (i : Bool) (m : Bool) (m16 : BitVec 16) :
    Encoding.Statement (.sblhL x1 x2 i m m16) :=
  encodeLongMem_ruled _ _ _ _ _ _ _ rfl
theorem Encoding.sblrS (m7 : BitVec 7) :
    Encoding.Statement (.sblrS m7) :=
  encodeShortMem_ruled _ _ _
theorem Encoding.sblrL (x2 : BitVec 4) (i : Bool) (m : Bool) (m16 : BitVec 16) :
    Encoding.Statement (.sblrL x2 i m m16) :=
  encodeLongMem_ruled _ _ _ _ _ _ _ rfl
theorem Encoding.sblhrL (x2 : BitVec 4) (i : Bool) (m : Bool) (m16 : BitVec 16) :
    Encoding.Statement (.sblhrL x2 i m m16) :=
  encodeLongMem_ruled _ _ _ _ _ _ _ rfl
theorem Encoding.mulS (x1 : BitVec 3) (m7 : BitVec 7) :
    Encoding.Statement (.mulS x1 m7) :=
  encodeShortMem_ruled _ _ _
theorem Encoding.mulL (x1 : BitVec 3) (x2 : BitVec 4) (i : Bool) (m : Bool) (m16 : BitVec 16) :
    Encoding.Statement (.mulL x1 x2 i m m16) :=
  encodeLongMem_ruled _ _ _ _ _ _ _ rfl
theorem Encoding.mulhL (x1 : BitVec 3) (x2 : BitVec 4) (i : Bool) (m : Bool) (m16 : BitVec 16) :
    Encoding.Statement (.mulhL x1 x2 i m m16) :=
  encodeLongMem_ruled _ _ _ _ _ _ _ rfl
theorem Encoding.mulrS (m7 : BitVec 7) :
    Encoding.Statement (.mulrS m7) :=
  encodeShortMem_ruled _ _ _
theorem Encoding.mulrL (x2 : BitVec 4) (i : Bool) (m : Bool) (m16 : BitVec 16) :
    Encoding.Statement (.mulrL x2 i m m16) :=
  encodeLongMem_ruled _ _ _ _ _ _ _ rfl
theorem Encoding.mulhrL (x2 : BitVec 4) (i : Bool) (m : Bool) (m16 : BitVec 16) :
    Encoding.Statement (.mulhrL x2 i m m16) :=
  encodeLongMem_ruled _ _ _ _ _ _ _ rfl
theorem Encoding.dvdS (x1 : BitVec 3) (m7 : BitVec 7) :
    Encoding.Statement (.dvdS x1 m7) :=
  encodeShortMem_ruled _ _ _
theorem Encoding.dvdL (x1 : BitVec 3) (x2 : BitVec 4) (i : Bool) (m : Bool) (m16 : BitVec 16) :
    Encoding.Statement (.dvdL x1 x2 i m m16) :=
  encodeLongMem_ruled _ _ _ _ _ _ _ rfl
theorem Encoding.dvdhL (x1 : BitVec 3) (x2 : BitVec 4) (i : Bool) (m : Bool) (m16 : BitVec 16) :
    Encoding.Statement (.dvdhL x1 x2 i m m16) :=
  encodeLongMem_ruled _ _ _ _ _ _ _ rfl
theorem Encoding.dvdrS (m7 : BitVec 7) :
    Encoding.Statement (.dvdrS m7) :=
  encodeShortMem_ruled _ _ _
theorem Encoding.dvdrL (x2 : BitVec 4) (i : Bool) (m : Bool) (m16 : BitVec 16) :
    Encoding.Statement (.dvdrL x2 i m m16) :=
  encodeLongMem_ruled _ _ _ _ _ _ _ rfl
theorem Encoding.dvdhrL (x2 : BitVec 4) (i : Bool) (m : Bool) (m16 : BitVec 16) :
    Encoding.Statement (.dvdhrL x2 i m m16) :=
  encodeLongMem_ruled _ _ _ _ _ _ _ rfl
theorem Encoding.adfS (x1 : BitVec 3) (m7 : BitVec 7) :
    Encoding.Statement (.adfS x1 m7) :=
  encodeShortMem_ruled _ _ _
theorem Encoding.adfL (x1 : BitVec 3) (x2 : BitVec 4) (i : Bool) (m : Bool) (m16 : BitVec 16) :
    Encoding.Statement (.adfL x1 x2 i m m16) :=
  encodeLongMem_ruled _ _ _ _ _ _ _ rfl
theorem Encoding.adfrS (m7 : BitVec 7) :
    Encoding.Statement (.adfrS m7) :=
  encodeShortMem_ruled _ _ _
theorem Encoding.adfrL (x2 : BitVec 4) (i : Bool) (m : Bool) (m16 : BitVec 16) :
    Encoding.Statement (.adfrL x2 i m m16) :=
  encodeLongMem_ruled _ _ _ _ _ _ _ rfl
theorem Encoding.sbfS (x1 : BitVec 3) (m7 : BitVec 7) :
    Encoding.Statement (.sbfS x1 m7) :=
  encodeShortMem_ruled _ _ _
theorem Encoding.sbfL (x1 : BitVec 3) (x2 : BitVec 4) (i : Bool) (m : Bool) (m16 : BitVec 16) :
    Encoding.Statement (.sbfL x1 x2 i m m16) :=
  encodeLongMem_ruled _ _ _ _ _ _ _ rfl
theorem Encoding.sbfrS (m7 : BitVec 7) :
    Encoding.Statement (.sbfrS m7) :=
  encodeShortMem_ruled _ _ _
theorem Encoding.sbfrL (x2 : BitVec 4) (i : Bool) (m : Bool) (m16 : BitVec 16) :
    Encoding.Statement (.sbfrL x2 i m m16) :=
  encodeLongMem_ruled _ _ _ _ _ _ _ rfl
theorem Encoding.mlfS (x1 : BitVec 3) (m7 : BitVec 7) :
    Encoding.Statement (.mlfS x1 m7) :=
  encodeShortMem_ruled _ _ _
theorem Encoding.mlfL (x1 : BitVec 3) (x2 : BitVec 4) (i : Bool) (m : Bool) (h : Bool) (m16 : BitVec 16) :
    Encoding.Statement (.mlfL x1 x2 i m h m16) :=
  encodeLongMem_ruled _ _ _ _ _ _ _ rfl
theorem Encoding.mlfrS (m7 : BitVec 7) :
    Encoding.Statement (.mlfrS m7) :=
  encodeShortMem_ruled _ _ _
theorem Encoding.mlfrL (x2 : BitVec 4) (i : Bool) (m : Bool) (h : Bool) (m16 : BitVec 16) :
    Encoding.Statement (.mlfrL x2 i m h m16) :=
  encodeLongMem_ruled _ _ _ _ _ _ _ rfl
theorem Encoding.dvfS (x1 : BitVec 3) (m7 : BitVec 7) :
    Encoding.Statement (.dvfS x1 m7) :=
  encodeShortMem_ruled _ _ _
theorem Encoding.dvfL (x1 : BitVec 3) (x2 : BitVec 4) (i : Bool) (m : Bool) (h : Bool) (m16 : BitVec 16) :
    Encoding.Statement (.dvfL x1 x2 i m h m16) :=
  encodeLongMem_ruled _ _ _ _ _ _ _ rfl
theorem Encoding.dvfrS (m7 : BitVec 7) :
    Encoding.Statement (.dvfrS m7) :=
  encodeShortMem_ruled _ _ _
theorem Encoding.dvfrL (x2 : BitVec 4) (i : Bool) (m : Bool) (h : Bool) (m16 : BitVec 16) :
    Encoding.Statement (.dvfrL x2 i m h m16) :=
  encodeLongMem_ruled _ _ _ _ _ _ _ rfl
theorem Encoding.afdS (x1 : BitVec 3) (m7 : BitVec 7) :
    Encoding.Statement (.afdS x1 m7) :=
  encodeShortMem_ruled _ _ _
theorem Encoding.afdL (x1 : BitVec 3) (x2 : BitVec 4) (i : Bool) (m : Bool) (m16 : BitVec 16) :
    Encoding.Statement (.afdL x1 x2 i m m16) :=
  encodeLongMem_ruled _ _ _ _ _ _ _ rfl
theorem Encoding.afdrS (m7 : BitVec 7) :
    Encoding.Statement (.afdrS m7) :=
  encodeShortMem_ruled _ _ _
theorem Encoding.afdrL (x2 : BitVec 4) (i : Bool) (m : Bool) (m16 : BitVec 16) :
    Encoding.Statement (.afdrL x2 i m m16) :=
  encodeLongMem_ruled _ _ _ _ _ _ _ rfl
theorem Encoding.sfdS (x1 : BitVec 3) (m7 : BitVec 7) :
    Encoding.Statement (.sfdS x1 m7) :=
  encodeShortMem_ruled _ _ _
theorem Encoding.sfdL (x1 : BitVec 3) (x2 : BitVec 4) (i : Bool) (m : Bool) (m16 : BitVec 16) :
    Encoding.Statement (.sfdL x1 x2 i m m16) :=
  encodeLongMem_ruled _ _ _ _ _ _ _ rfl
theorem Encoding.sfdrS (m7 : BitVec 7) :
    Encoding.Statement (.sfdrS m7) :=
  encodeShortMem_ruled _ _ _
theorem Encoding.sfdrL (x2 : BitVec 4) (i : Bool) (m : Bool) (m16 : BitVec 16) :
    Encoding.Statement (.sfdrL x2 i m m16) :=
  encodeLongMem_ruled _ _ _ _ _ _ _ rfl
theorem Encoding.andS (x1 : BitVec 3) (m7 : BitVec 7) :
    Encoding.Statement (.andS x1 m7) :=
  encodeShortMem_ruled _ _ _
theorem Encoding.andL (x1 : BitVec 3) (x2 : BitVec 4) (i : Bool) (m : Bool) (h : Bool) (m16 : BitVec 16) :
    Encoding.Statement (.andL x1 x2 i m h m16) :=
  encodeLongMem_ruled _ _ _ _ _ _ _ rfl
theorem Encoding.andrS (m7 : BitVec 7) :
    Encoding.Statement (.andrS m7) :=
  encodeShortMem_ruled _ _ _
theorem Encoding.andrL (x2 : BitVec 4) (i : Bool) (m : Bool) (h : Bool) (m16 : BitVec 16) :
    Encoding.Statement (.andrL x2 i m h m16) :=
  encodeLongMem_ruled _ _ _ _ _ _ _ rfl
theorem Encoding.lorS (x1 : BitVec 3) (m7 : BitVec 7) :
    Encoding.Statement (.lorS x1 m7) :=
  encodeShortMem_ruled _ _ _
theorem Encoding.lorL (x1 : BitVec 3) (x2 : BitVec 4) (i : Bool) (m : Bool) (h : Bool) (m16 : BitVec 16) :
    Encoding.Statement (.lorL x1 x2 i m h m16) :=
  encodeLongMem_ruled _ _ _ _ _ _ _ rfl
theorem Encoding.lorrS (m7 : BitVec 7) :
    Encoding.Statement (.lorrS m7) :=
  encodeShortMem_ruled _ _ _
theorem Encoding.lorrL (x2 : BitVec 4) (i : Bool) (m : Bool) (h : Bool) (m16 : BitVec 16) :
    Encoding.Statement (.lorrL x2 i m h m16) :=
  encodeLongMem_ruled _ _ _ _ _ _ _ rfl
theorem Encoding.exoS (x1 : BitVec 3) (m7 : BitVec 7) :
    Encoding.Statement (.exoS x1 m7) :=
  encodeShortMem_ruled _ _ _
theorem Encoding.exoL (x1 : BitVec 3) (x2 : BitVec 4) (i : Bool) (m : Bool) (h : Bool) (m16 : BitVec 16) :
    Encoding.Statement (.exoL x1 x2 i m h m16) :=
  encodeLongMem_ruled _ _ _ _ _ _ _ rfl
theorem Encoding.exorS (m7 : BitVec 7) :
    Encoding.Statement (.exorS m7) :=
  encodeShortMem_ruled _ _ _
theorem Encoding.exorL (x2 : BitVec 4) (i : Bool) (m : Bool) (h : Bool) (m16 : BitVec 16) :
    Encoding.Statement (.exorL x2 i m h m16) :=
  encodeLongMem_ruled _ _ _ _ _ _ _ rfl
theorem Encoding.ptr (x1 : BitVec 3) (x2 : BitVec 4) (i : Bool) (m : Bool) (m16 : BitVec 16) :
    Encoding.Statement (.ptr x1 x2 i m m16) :=
  encodeLongMem_ruled _ _ _ _ _ _ _ rfl

end Sys2Proof.Laws
end

