-- ==== Sys2Proof/Laws/Turns.lean ====
section
/-! SUPPORT. What the I/O unit's turn before a memory access can do, and that it depends on nothing that the registers
hold. -/

namespace Sys2Proof.Machine

/-! ### One write, and a list of them -/

/-- A write of the I/O unit changes memory, and what is known of the halfword that IR holds. -/
theorem State.ioWrite_frame (s : State) (w : IoWrite) :
    s.ioWrite w = { s with mem := (s.ioWrite w).mem, irHeld := (s.ioWrite w).irHeld } := by
  unfold State.ioWrite
  split <;> rfl

/-- The halfword that IR holds stays the same, and nothing that may run there is forgotten. -/
theorem State.ioWrite_held (s : State) (w : IoWrite) :
    ∃ l, (s.ioWrite w).irHeld = s.irHeld.map fun h => { h with past := h.past ++ l } := by
  have same : ∃ l, s.irHeld = s.irHeld.map fun h => { h with past := h.past ++ l } :=
    ⟨[], by cases s.irHeld <;> simp⟩
  unfold State.ioWrite
  split
  · unfold State.noteWrite
    simp only [State.setMem_irHeld, State.setHeld_irHeld]
    cases hs : s.irHeld with
    | none => exact ⟨[], rfl⟩
    | some h =>
      rw [hs] at same
      simp only [Option.map_some] at same ⊢
      split
      · exact ⟨[s.mem.half h.addr], rfl⟩
      · exact same
  · exact same

/-- Where the CPU has not stored into that halfword, nothing is noted. -/
theorem State.ioWrite_unstored (s : State) (w : IoWrite) (hs : ∀ h, s.irHeld = some h → h.past = []) :
    (s.ioWrite w).irHeld = s.irHeld := by
  unfold State.ioWrite
  split
  · unfold State.noteWrite
    simp only [State.setMem_irHeld, State.setHeld_irHeld]
    cases h : s.irHeld with
    | none => rfl
    | some x => simp [hs x h]
  · rfl

/-- A write of the I/O unit leaves memory alone, or puts a word at an even present address. -/
theorem State.ioWrite_cases (s : State) (w : IoWrite) :
    (s.ioWrite w).mem = s.mem ∨ (isOdd w.addr = false ∧ s.isPresent w.addr = true ∧ s.isPresent (w.addr + 1) = true ∧
      (s.ioWrite w).mem = s.mem.putWord w.addr w.data) := by
  unfold State.ioWrite
  split
  · rename_i h
    simp only [Bool.and_eq_true, Bool.not_eq_true'] at h
    exact .inr ⟨h.1.1, h.1.2, h.2, rfl⟩
  · exact .inl rfl

/-- A list of writes changes memory, and what is known of the halfword that IR holds. -/
theorem State.ioWrites_frame (ws : List IoWrite) (s : State) :
    ws.foldl State.ioWrite s =
      { s with mem := (ws.foldl State.ioWrite s).mem, irHeld := (ws.foldl State.ioWrite s).irHeld } := by
  induction ws generalizing s with
  | nil => rfl
  | cons w ws ih =>
    simp only [List.foldl_cons]
    rw [ih (s.ioWrite w), State.ioWrite_frame s w]

theorem State.ioWrites_cfg (ws : List IoWrite) (s : State) : (ws.foldl State.ioWrite s).cfg = s.cfg := by
  rw [State.ioWrites_frame]

theorem State.ioWrite_cfg (s : State) (w : IoWrite) : (s.ioWrite w).cfg = s.cfg := by
  rw [State.ioWrite_frame]

theorem State.ioWrites_held (ws : List IoWrite) (s : State) :
    ∃ l, (ws.foldl State.ioWrite s).irHeld = s.irHeld.map fun h => { h with past := h.past ++ l } := by
  induction ws generalizing s with
  | nil => exact ⟨[], by cases h : s.irHeld <;> simp [h]⟩
  | cons w ws ih =>
    obtain ⟨l, hl⟩ := State.ioWrite_held s w
    obtain ⟨k, hk⟩ := ih (s.ioWrite w)
    refine ⟨l ++ k, ?_⟩
    rw [List.foldl_cons, hk, hl]
    cases s.irHeld <;> simp

theorem State.ioWrites_unstored (ws : List IoWrite) (s : State) (hs : ∀ h, s.irHeld = some h → h.past = []) :
    (ws.foldl State.ioWrite s).irHeld = s.irHeld := by
  induction ws generalizing s with
  | nil => rfl
  | cons w ws ih =>
    have h1 := State.ioWrite_unstored s w hs
    rw [List.foldl_cons, ih _ (by rw [h1]; exact hs), h1]

/-- A byte outside the words written keeps its value. -/
theorem State.ioWrites_outside (ws : List IoWrite) (s : State) (k : Nat)
    (h : ∀ w ∈ ws, k < 2 * w.addr.toNat ∨ 2 * w.addr.toNat + 4 ≤ k) :
    (ws.foldl State.ioWrite s).mem.byte k = s.mem.byte k := by
  induction ws generalizing s with
  | nil => rfl
  | cons w ws ih =>
    simp only [List.foldl_cons]
    rw [ih _ fun v hv => h v (List.mem_cons_of_mem _ hv)]
    rcases State.ioWrite_cases s w with h1 | ⟨h1, _, _, h2⟩
    · rw [h1]
    · rw [h2]
      exact sameOutside_putWord _ _ _ h1 k (by simpa using h w List.mem_cons_self)

theorem State.ioWrites_absent (ws : List IoWrite) (s : State) (a : Addr) (h : s.isPresent a = false) :
    (ws.foldl State.ioWrite s).mem.half a = s.mem.half a := by
  induction ws generalizing s with
  | nil => rfl
  | cons w ws ih =>
    simp only [List.foldl_cons]
    rw [ih _ (by simpa [State.isPresent, State.ioWrite_cfg] using h)]
    rcases State.ioWrite_cases s w with h1 | ⟨_, h1, h2, h3⟩
    · rw [h1]
    · rw [h3]
      refine Memory.half_putWord_ne _ _ (fun e => ?_) (fun e => ?_)
      · subst e; exact Bool.false_ne_true (h.symm.trans h1)
      · subst e; exact Bool.false_ne_true (h.symm.trans h2)

theorem State.ioWrites_mem (ws : List IoWrite) (s : State) :
    (s.mem.wf = true → (ws.foldl State.ioWrite s).mem.wf = true) ∧
      (s.mem.within s.cfg.present = true → (ws.foldl State.ioWrite s).mem.within s.cfg.present = true) := by
  induction ws generalizing s with
  | nil => exact ⟨id, id⟩
  | cons w ws ih =>
    simp only [List.foldl_cons]
    obtain ⟨h1, h2⟩ := ih (s.ioWrite w)
    obtain ⟨h3, h4⟩ := State.ioWrite_mem s w
    rw [State.ioWrite_cfg] at h2
    exact ⟨h1 ∘ h3, h2 ∘ h4⟩

/-- Writes depend on the configuration, memory and what is known of the halfword that IR holds alone. -/
theorem State.ioWrites_congr (ws : List IoWrite) {s t : State} (hc : t.cfg = s.cfg) (hm : t.mem = s.mem)
    (hh : t.irHeld = s.irHeld) :
    (ws.foldl State.ioWrite t).mem = (ws.foldl State.ioWrite s).mem ∧
      (ws.foldl State.ioWrite t).irHeld = (ws.foldl State.ioWrite s).irHeld := by
  induction ws generalizing s t with
  | nil => exact ⟨hm, hh⟩
  | cons w ws ih =>
    simp only [List.foldl_cons]
    have h1 : (t.ioWrite w).mem = (s.ioWrite w).mem ∧ (t.ioWrite w).irHeld = (s.ioWrite w).irHeld := by
      unfold State.ioWrite State.noteWrite
      simp only [State.isPresent, hc]
      by_cases hb : (!isOdd w.addr && inRanges s.cfg.present w.addr && inRanges s.cfg.present (w.addr + 1)) = true
      · simp only [hb, if_true, State.setMem_mem, State.setMem_irHeld, State.setHeld_irHeld, hm, hh, and_self]
      · simp only [Bool.not_eq_true] at hb
        simp only [hb, Bool.false_eq_true, if_false]
        exact ⟨hm, hh⟩
    exact ih (by rw [State.ioWrite_cfg, State.ioWrite_cfg, hc]) h1.1 h1.2

/-! ### A turn -/

/-- What one turn leaves, by SR14. -/
theorem State.ioTurn_eq (s : State) :
    s.ioTurn = if s.srBit 14 then
        { s with
          mem := ((s.ioDeferred ++ s.steals.headD []).foldl State.ioWrite s).mem
          irHeld := ((s.ioDeferred ++ s.steals.headD []).foldl State.ioWrite s).irHeld
          ioDeferred := [], steals := s.steals.tail }
      else { s with ioDeferred := s.ioDeferred ++ s.steals.headD [], steals := s.steals.tail } := by
  unfold State.ioTurn State.flushIo
  generalize s.ioDeferred ++ s.steals.headD [] = ws
  obtain ⟨h1, h2⟩ := State.ioWrites_congr ws (s := s) (t := (s.setIoDeferred ws).setSteals s.steals.tail) rfl rfl rfl
  cases h : s.srBit 14
  · exact if_neg (by rw [show ((s.setIoDeferred ws).setSteals s.steals.tail).srBit 14 = s.srBit 14 from rfl, h]; simp)
  · refine (if_pos h).trans ?_
    rw [show ((s.setIoDeferred ws).setSteals s.steals.tail).ioDeferred = ws from rfl, State.ioWrites_frame, h1, h2]
    rfl

/-- What a turn may write is what stood first, and then what is left. -/
theorem State.ioTurn_writes (s : State) :
    s.ioWrites = (if s.srBit 14 then s.ioDeferred ++ s.steals.headD [] else []) ++ s.ioTurn.ioWrites := by
  rw [State.ioTurn_eq]
  unfold State.ioWrites
  cases s.steals <;> split <;> simp

/-- What turns of the I/O unit can do, from the writes they make. -/
theorem State.turned_of_order {s t : State} {ws : List IoWrite}
    (hf : t = { s with mem := t.mem, irHeld := t.irHeld, ioDeferred := t.ioDeferred, steals := t.steals })
    (hw : s.ioWrites = ws ++ t.ioWrites) (ho : s.srBit 14 = false → ws = [])
    (hm : t.mem = (ws.foldl State.ioWrite s).mem) (hh : t.irHeld = (ws.foldl State.ioWrite s).irHeld) :
    s.Turned t where
  frame := hf
  order := ⟨ws, hw, ho, hm, hh⟩
  outside := fun k hk => by
    rw [hm]
    exact State.ioWrites_outside ws s k fun w h => hk w (by rw [hw]; exact List.mem_append_left _ h)
  absent := fun a ha => by rw [hm]; exact State.ioWrites_absent ws s a ha
  held := by rw [hh]; exact State.ioWrites_held ws s
  unstored := fun hu => by rw [hh]; exact State.ioWrites_unstored ws s hu

/-- What a turn of the I/O unit can do. -/
theorem State.ioTurn_turned (s : State) : s.Turned s.ioTurn := by
  refine State.turned_of_order ?_ (State.ioTurn_writes s) (fun h => if_neg (by rw [h]; exact Bool.false_ne_true)) ?_ ?_
  all_goals
    rw [State.ioTurn_eq]
    cases s.srBit 14 <;> rfl

/-- A turn keeps the canonical form of memory, and memory where it is present. -/
theorem State.ioTurn_mem (s : State) :
    (s.mem.wf = true → s.ioTurn.mem.wf = true) ∧
      (s.mem.within s.cfg.present = true → s.ioTurn.mem.within s.cfg.present = true) := by
  rw [State.ioTurn_eq]
  split
  · exact State.ioWrites_mem _ s
  · exact ⟨id, id⟩

/-- A turn depends on nothing that the other registers hold, and keeps them. -/
theorem State.ioTurn_with {s t : State} (hc : t.cfg = s.cfg) (hs : t.sr = s.sr) (hm : t.mem = s.mem)
    (hh : t.irHeld = s.irHeld) (hd : t.ioDeferred = s.ioDeferred) (hl : t.steals = s.steals) :
    t.ioTurn = { t with
      mem := s.ioTurn.mem, irHeld := s.ioTurn.irHeld, ioDeferred := s.ioTurn.ioDeferred, steals := s.ioTurn.steals } := by
  rw [State.ioTurn_eq t, State.ioTurn_eq s]
  obtain ⟨h1, h2⟩ := State.ioWrites_congr (s.ioDeferred ++ s.steals.headD []) hc hm hh
  rw [show t.srBit 14 = s.srBit 14 by rw [State.srBit, hs, State.srBit], hd, hl]
  cases s.srBit 14
  · simp only [Bool.false_eq_true, if_false, ← hm, ← hh]
  · simp only [if_true, h1, h2]

@[simp] theorem State.ioTurn_cfg (s : State) : s.ioTurn.cfg = s.cfg := by rw [s.ioTurn_turned.frame]
@[simp] theorem State.ioTurn_regA (s : State) : s.ioTurn.regA = s.regA := by rw [s.ioTurn_turned.frame]
@[simp] theorem State.ioTurn_regB (s : State) : s.ioTurn.regB = s.regB := by rw [s.ioTurn_turned.frame]
@[simp] theorem State.ioTurn_pc (s : State) : s.ioTurn.pc = s.pc := by rw [s.ioTurn_turned.frame]
@[simp] theorem State.ioTurn_ir (s : State) : s.ioTurn.ir = s.ir := by rw [s.ioTurn_turned.frame]
@[simp] theorem State.ioTurn_oar (s : State) : s.ioTurn.oar = s.oar := by rw [s.ioTurn_turned.frame]
@[simp] theorem State.ioTurn_xrf (s : State) : s.ioTurn.xrf = s.xrf := by rw [s.ioTurn_turned.frame]
@[simp] theorem State.ioTurn_sr (s : State) : s.ioTurn.sr = s.sr := by rw [s.ioTurn_turned.frame]
@[simp] theorem State.ioTurn_mr (s : State) : s.ioTurn.mr = s.mr := by rw [s.ioTurn_turned.frame]
@[simp] theorem State.ioTurn_pending (s : State) : s.ioTurn.pending = s.pending := by rw [s.ioTurn_turned.frame]
@[simp] theorem State.ioTurn_inService (s : State) : s.ioTurn.inService = s.inService := by
  rw [s.ioTurn_turned.frame]
@[simp] theorem State.ioTurn_holdoff (s : State) : s.ioTurn.holdoff = s.holdoff := by rw [s.ioTurn_turned.frame]
@[simp] theorem State.ioTurn_halted (s : State) : s.ioTurn.halted = s.halted := by rw [s.ioTurn_turned.frame]
@[simp] theorem State.ioTurn_switches (s : State) : s.ioTurn.switches = s.switches := by rw [s.ioTurn_turned.frame]
@[simp] theorem State.ioTurn_testSignal (s : State) : s.ioTurn.testSignal = s.testSignal := by
  rw [s.ioTurn_turned.frame]
@[simp] theorem State.ioTurn_arrivals (s : State) : s.ioTurn.arrivals = s.arrivals := by rw [s.ioTurn_turned.frame]
@[simp] theorem State.ioTurn_busIn (s : State) : s.ioTurn.busIn = s.busIn := by rw [s.ioTurn_turned.frame]
@[simp] theorem State.ioTurn_ioLog (s : State) : s.ioTurn.ioLog = s.ioLog := by rw [s.ioTurn_turned.frame]
@[simp] theorem State.ioTurn_draws (s : State) : s.ioTurn.draws = s.draws := by rw [s.ioTurn_turned.frame]

/-- With nothing asked for and nothing waiting, a turn changes nothing. -/
theorem State.ioTurn_quiet (s : State) (hd : s.ioDeferred = []) (hl : s.steals = []) : s.ioTurn = s := by
  rw [State.ioTurn_eq]
  cases s
  simp only at hd hl
  subst hd hl
  simp

/-! ### Turns in a row -/

theorem State.Turned.refl (s : State) : s.Turned s :=
  State.turned_of_order (ws := []) rfl rfl (fun _ => rfl) rfl rfl

theorem State.Turned.trans {s t u : State} (h : s.Turned t) (g : t.Turned u) : s.Turned u := by
  obtain ⟨ws, h1, h2, h3, h4⟩ := h.order
  obtain ⟨vs, g1, g2, g3, g4⟩ := g.order
  obtain ⟨c1, c2⟩ := State.ioWrites_congr vs (s := ws.foldl State.ioWrite s) (t := t)
    (by rw [State.ioWrites_cfg, h.frame]) h3 h4
  refine State.turned_of_order (ws := ws ++ vs) ?_ ?_ ?_ ?_ ?_
  · rw [g.frame, h.frame]
  · rw [h1, g1, List.append_assoc]
  · intro hs
    rw [h2 hs, g2 (by rw [h.frame]; exact hs)]
    rfl
  · rw [List.foldl_append, g3, c1]
  · rw [List.foldl_append, g4, c2]

/-- With SR14 = 0 nothing is written, and every request still stands. -/
theorem State.Turned.off {s t : State} (h : s.Turned t) (hs : s.srBit 14 = false) :
    t.mem = s.mem ∧ t.irHeld = s.irHeld ∧ t.ioWrites = s.ioWrites := by
  obtain ⟨ws, h1, h2, h3, h4⟩ := h.order
  obtain rfl := h2 hs
  exact ⟨h3, h4, h1.symm⟩

/-- Without requests nothing is written. -/
theorem State.Turned.quiet {s t : State} (h : s.Turned t) (hq : s.ioWrites = []) :
    t.mem = s.mem ∧ t.irHeld = s.irHeld ∧ t.ioWrites = [] := by
  obtain ⟨ws, h1, _, h3, h4⟩ := h.order
  obtain ⟨rfl, h5⟩ := List.append_eq_nil_iff.1 (h1.symm.trans hq)
  exact ⟨h3, h4, h5⟩

/-! ### Stores -/

/-- A store notes what it covers, and changes nothing else before it writes. -/
theorem State.noteStore_frame (s : State) (half : Bool) (a : Addr) :
    s.noteStore half a = { s with irHeld := (s.noteStore half a).irHeld } := rfl

@[simp] theorem State.noteStore_mem (s : State) (half : Bool) (a : Addr) : (s.noteStore half a).mem = s.mem := rfl

@[simp] theorem State.storeTurn_mem (s : State) (half : Bool) (a : Addr) :
    (s.storeTurn half a).mem = s.ioTurn.mem := rfl

@[simp] theorem State.storeTurn_cfg (s : State) (half : Bool) (a : Addr) : (s.storeTurn half a).cfg = s.cfg :=
  s.ioTurn_cfg

/-- The state that a store changes is the one after the I/O unit's turn, but for what is noted. -/
theorem State.storeTurn_frame (s : State) (half : Bool) (a : Addr) :
    s.storeTurn half a = { s.ioTurn with irHeld := (s.storeTurn half a).irHeld } := rfl

/-- Where IR holds nothing that the store covers, the state is the one after the I/O unit's turn. -/
theorem State.storeTurn_apart (s : State) (half : Bool) (a : Addr)
    (h : ∀ x, s.ioTurn.irHeld = some x → x.addr ≠ if half then a else a + 1) : s.storeTurn half a = s.ioTurn := by
  rw [State.storeTurn_frame]
  unfold State.storeTurn State.noteStore
  rw [State.setHeld_irHeld]
  cases hh : s.ioTurn.irHeld with
  | none => rw [Option.map_none, ← hh]
  | some x => rw [Option.map_some, if_neg (h x hh), ← hh]

/-- A store's turn depends on nothing that the other registers hold, and keeps them. -/
theorem State.storeTurn_with {s t : State} (hc : t.cfg = s.cfg) (hs : t.sr = s.sr) (hm : t.mem = s.mem)
    (hh : t.irHeld = s.irHeld) (hd : t.ioDeferred = s.ioDeferred) (hl : t.steals = s.steals) (half : Bool) (a : Addr) :
    t.storeTurn half a = { t with
      mem := (s.storeTurn half a).mem, irHeld := (s.storeTurn half a).irHeld,
      ioDeferred := (s.storeTurn half a).ioDeferred, steals := (s.storeTurn half a).steals } := by
  unfold State.storeTurn
  rw [State.ioTurn_with hc hs hm hh hd hl]
  rfl

/-! ### Accesses of instructions -/

theorem State.load32_of_readable {s : State} {a : Addr} (h : s.readable32 a = true) :
    s.load32 a = .ok (s.ioTurn.mem.word a, s.ioTurn) :=
  State.load32_ok.2 ⟨State.read32_of_readable (by simpa [State.readable32, State.isPresent] using h), rfl⟩

theorem State.store32_of_writable {s : State} {a : Addr} (v : Word32) (h : s.writable32 a = true) :
    s.store32 a v = .ok ((s.storeTurn false a).setMem (s.ioTurn.mem.putWord a v)) :=
  State.write32_of_writable v (by simpa [State.writable32, State.writable16, State.isPresent, State.isProtected] using h)

theorem State.store16_of_writable {s : State} {a : Addr} (v : Half) (h : s.writable16 a = true) :
    s.store16 a v = .ok ((s.storeTurn true a).setMem (s.ioTurn.mem.putHalf a v)) :=
  State.write16_of_writable v (by simpa [State.writable16, State.isPresent, State.isProtected] using h)

/-- A store of either width completes where the cell may be written. -/
theorem State.storeBack_of_writable {s : State} {r : Ref} (v : Word32) (hw : s.mem.wf = true)
    (h : s.writable r = true) :
    ∃ m', s.storeBack r.addr r.half v = .ok ((s.storeTurn r.half r.addr).setMem m') ∧
      stored (s.storeTurn r.half r.addr).mem m' r v := by
  have hm := (State.ioTurn_mem s).1 hw
  unfold State.writable at h
  unfold State.storeBack stored
  cases hh : r.half
  · simp only [hh, Bool.false_eq_true, if_false] at h ⊢
    exact ⟨_, State.store32_of_writable v h, storedWord_putWord _ _ _ hm (State.isOdd_of_writable32 h)⟩
  · simp only [hh, if_true] at h ⊢
    exact ⟨_, State.store16_of_writable _ h, storedHalf_putHalf _ _ _ hm⟩

end Sys2Proof.Machine
end

