-- ==== Sys2Proof/Tests/Slice0.lean ====
section
/-! SUPPORT. The model's own tests: ill-formed terms refused, words written out from the encoding tables of the spec,
single steps from spec/95_test_vectors.md, and a witness for the hypotheses of every obligation. -/

namespace Sys2Proof.Tests

open Sys2Proof Machine

/-! ### Well-formedness -/

/-- X1 = 7 is refused in the plain form of every instruction that has a return to memory variant (R117, R202). -/
theorem test_wellFormed_x1_seven :
    [Instr.aduS 7 0, Instr.aduL 7 0 false false 0, Instr.aduhL 7 0 false false 0, Instr.adlS 7 0,
      Instr.adlL 7 0 false false 0, Instr.adlhL 7 0 false false 0, Instr.sbuS 7 0, Instr.sbuL 7 0 false false 0,
      Instr.sbuhL 7 0 false false 0, Instr.sblS 7 0, Instr.sblL 7 0 false false 0, Instr.sblhL 7 0 false false 0,
      Instr.mulS 7 0, Instr.mulL 7 0 false false 0, Instr.mulhL 7 0 false false 0, Instr.dvdS 7 0,
      Instr.dvdL 7 0 false false 0, Instr.dvdhL 7 0 false false 0, Instr.adfS 7 0, Instr.adfL 7 0 false false 0,
      Instr.sbfS 7 0, Instr.sbfL 7 0 false false 0, Instr.mlfS 7 0, Instr.mlfL 7 0 false false false 0,
      Instr.dvfS 7 0, Instr.dvfL 7 0 false false false 0, Instr.afdS 7 0, Instr.afdL 7 0 false false 0,
      Instr.sfdS 7 0, Instr.sfdL 7 0 false false 0, Instr.andS 7 0, Instr.andL 7 0 false false false 0,
      Instr.lorS 7 0, Instr.lorL 7 0 false false false 0, Instr.exoS 7 0, Instr.exoL 7 0 false false false 0].all (fun i => !WellFormed i) = true := by
  decide

/-- With any other X1 the same forms are well formed. -/
theorem test_wellFormed_x1_six :
    [Instr.aduS 6 0, Instr.aduL 6 0 false false 0, Instr.aduhL 6 0 false false 0, Instr.adlS 6 0,
      Instr.adlL 6 0 false false 0, Instr.adlhL 6 0 false false 0, Instr.sbuS 6 0, Instr.sbuL 6 0 false false 0,
      Instr.sbuhL 6 0 false false 0, Instr.sblS 6 0, Instr.sblL 6 0 false false 0, Instr.sblhL 6 0 false false 0,
      Instr.mulS 6 0, Instr.mulL 6 0 false false 0, Instr.mulhL 6 0 false false 0, Instr.dvdS 6 0,
      Instr.dvdL 6 0 false false 0, Instr.dvdhL 6 0 false false 0, Instr.adfS 6 0, Instr.adfL 6 0 false false 0,
      Instr.sbfS 6 0, Instr.sbfL 6 0 false false 0, Instr.mlfS 6 0, Instr.mlfL 6 0 false false false 0,
      Instr.dvfS 6 0, Instr.dvfL 6 0 false false false 0, Instr.afdS 6 0, Instr.afdL 6 0 false false 0,
      Instr.sfdS 6 0, Instr.sfdL 6 0 false false 0, Instr.andS 6 0, Instr.andL 6 0 false false false 0,
      Instr.lorS 6 0, Instr.lorL 6 0 false false false 0, Instr.exoS 6 0, Instr.exoL 6 0 false false false 0].all WellFormed = true := by
  decide

/-- A pointer word is no instruction (R123, R309). -/
theorem test_wellFormed_ptr : WellFormed (.ptr 0 0 false false 0) = false := by
  decide

/-! ### Decoding -/

/-- Every word of a list, numbered as spec/opcode_table.json numbers its bits, decodes to its instruction. -/
def decodes (l : List (Nat × Nat × Instr)) : Bool := l.all fun e => decodeTableWord e.1 e.2.1 == some e.2.2

/-- Words of the non-memory instructions (30_encoding.md R104, R121; 47_nonmem.md). -/
theorem test_decode_nonMemory :
    decodes [
      (16, 0b0000000010000000, .emi),
      (16, 0b0000000100000000, .dpi),
      (16, 0b0000000110000000, .dmi),
      (16, 0b0000001000000000, .epi),
      (16, 0b0000001010000000, .hlt),
      (16, 0b0000001100001010, .setf 0xA),
      (16, 0b0000001110000001, .rstf 0x1),
      (16, 0b0000010000000000, .cfx),
      (16, 0b0000010010000000, .cxf),
      (16, 0b0000010100000000, .eab),
      (16, 0b0000010110000000, .shm),
      (16, 0b0000011000000000, .rhm),
      (16, 0b0000011010000110, .lxa 0x6),
      (16, 0b0000011100000000, .nop)] = true := by
  decide

/-- Words of the shifts (R103, R122). -/
theorem test_decode_shift :
    decodes [
      (16, 0b0000101100011000, .slld 0x6 0x18),
      (16, 0b0000101110100001, .slcd 0x7 0x1),
      (16, 0b0000100001010001, .sll 0x0 0x11),
      (16, 0b0000100111101100, .srld 0x3 0xC),
      (16, 0b0000110000000110, .srad 0x0 0x6),
      (16, 0b0000111110101100, .srcd 0x7 0xC),
      (16, 0b0000110001011110, .sra 0x0 0x1E),
      (16, 0b0000111101100010, .src 0x6 0x2)] = true := by
  decide

/-- Words of the block transfers (R108). -/
theorem test_decode_block :
    decodes [
      (16, 0b0010101001101010, .mfm 0x4 0x6A),
      (16, 0b0010110000110100, .mmf 0x0 0x34)] = true := by
  decide

/-- Words of the short jumps (R105). -/
theorem test_decode_shortJump :
    decodes [
      (16, 0b0110000010101100, .jru true 0x2C),
      (16, 0b0110000100001110, .jrn false 0xE),
      (16, 0b0110001000010111, .jrg false 0x17),
      (16, 0b0110001100101011, .jrl false 0x2B)] = true := by
  decide

/-- Words of the long jumps (R106). -/
theorem test_decode_longJump :
    decodes [
      (32, 0b01100100000001010000111101101100, .js 0x0 0x10F6C),
      (32, 0b01100111000010001010111100000100, .jgf 0xC 0xAF04),
      (32, 0b01100110110100011110111111001110, .jgs 0xB 0x1EFCE),
      (32, 0b01100110000110010111111000001001, .jgw 0x2 0x17E09),
      (32, 0b01100100001100011110101001110111, .jgu 0x1EA77),
      (32, 0b01100101001000100011111110000111, .jan 0x23F87),
      (32, 0b01100110001000001111001100100010, .jag 0xF322),
      (32, 0b01100111001000000111101101101101, .jal 0x7B6D)] = true := by
  decide

/-- Words of the input/output instructions (R107). -/
theorem test_decode_inputOutput :
    decodes [
      (16, 0b0100101110100000, .doa true 0x34 false),
      (16, 0b0100100001001011, .dia false 0x9 true),
      (32, 0b01001100000101010011010010111011, .dom false 0x2 true true 0x34BB),
      (32, 0b01001101110101110001011010110011, .dim false 0x3A true true 0x16B3)] = true := by
  decide

/-- Words of short loads and stores (R101, R120). -/
theorem test_decode_shortLoadStore :
    decodes [
      (16, 0b0001000001001110, .ldaS 0x0 0x4E),
      (16, 0b0101001101111001, .ldbS 0x6 0x79),
      (16, 0b0011100010100010, .staS 0x1 0x22),
      (16, 0b0111101101100010, .stbS 0x6 0x62),
      (16, 0b0001101000100110, .stxS 0x4 0x26),
      (16, 0b0101100000110010, .ldxS 0x0 0x32),
      (16, 0b0011001011010000, .laeS 0x5 0x50),
      (16, 0b0100000011001001, .sthS 0x1 0x49),
      (16, 0b0010000110110101, .icnS 0x3 0x35),
      (16, 0b0110100001011000, .imnS 0x0 0x58)] = true := by
  decide

/-- Words of long loads and stores (R102, R120). -/
theorem test_decode_longLoadStore :
    decodes [
      (32, 0b00010110011111101101101111110011, .ldaL 0x4 0xF true true 0xDBF3),
      (32, 0b00010110011111111000010000101101, .ldahL 0x4 0xF true true 0x842D),
      (32, 0b01010100110010000111101000101110, .ldbL 0x1 0x9 false false 0x7A2E),
      (32, 0b01010100000001010111111111110101, .ldbhL 0x0 0x0 true false 0x7FF5),
      (32, 0b00111100100011001010110010000010, .staL 0x1 0x1 true false 0xAC82),
      (32, 0b00111101111111011000000100101001, .stahL 0x3 0xF true false 0x8129),
      (32, 0b01111110110101101110100111101100, .stbL 0x5 0xA true true 0xE9EC),
      (32, 0b01111101101101110000100001011111, .stbhL 0x3 0x6 true true 0x85F),
      (32, 0b00011100110110001110110101110101, .stxL 0x1 0xB false false false 0xED75),
      (32, 0b01011110011001100000110100100100, .ldxL 0x4 0xC true true false 0xD24),
      (32, 0b00110110010000111101001010010100, .laeL 0x4 0x8 false true true 0xD294),
      (32, 0b01000111010110110010000111100000, .sthL 0x6 0xB false true true 0x21E0),
      (32, 0b00100110111101100001010010100111, .icnL 0x5 0xE true true 0x14A7),
      (32, 0b00100101111110010010001111000010, .iclL 0x3 0xF false false 0x23C2),
      (32, 0b01101111000011011101010001001000, .imnL 0x6 0x1 true false 0xD448),
      (32, 0b01101101011101000011000010111101, .impL 0x2 0xE true false 0x30BD),
      (32, 0b10011110111001110101000111101100, .ldsL 0x5 0xC true true 0x51EC),
      (32, 0b11011110111010011011110100011100, .stsL 0x5 0xD false false 0xBD1C),
      (32, 0b10111101010001111010110100010001, .stiL 0x2 0x8 true true 0xAD11),
      (32, 0b11111100011100111101001011110001, .ldiL 0x0 0xE false true 0xD2F1)] = true := by
  decide

/-- Words of short fixed and floating point arithmetic (R101, R117, R120). -/
theorem test_decode_shortArithmetic :
    decodes [
      (16, 0b1010001010000111, .aduS 0x5 0x7),
      (16, 0b1010001111011111, .adurS 0x5F),
      (16, 0b1010100110101101, .adlS 0x3 0x2D),
      (16, 0b1010101110110100, .adlrS 0x34),
      (16, 0b1110000101010011, .sbuS 0x2 0x53),
      (16, 0b1110001110110000, .sburS 0x30),
      (16, 0b1110100110100111, .sblS 0x3 0x27),
      (16, 0b1110101111110100, .sblrS 0x74),
      (16, 0b1101001100100011, .mulS 0x6 0x23),
      (16, 0b1101001110011111, .mulrS 0x1F),
      (16, 0b1111001011001011, .dvdS 0x5 0x4B),
      (16, 0b1111001111010011, .dvdrS 0x53),
      (16, 0b1011101100100111, .adfS 0x6 0x27),
      (16, 0b1011101110011000, .adfrS 0x18),
      (16, 0b1111100111100001, .sbfS 0x3 0x61),
      (16, 0b1111101110100000, .sbfrS 0x20),
      (16, 0b1001001011000111, .mlfS 0x5 0x47),
      (16, 0b1001001111100011, .mlfrS 0x63),
      (16, 0b1011000111000011, .dvfS 0x3 0x43),
      (16, 0b1011001111101001, .dvfrS 0x69),
      (16, 0b1001100010101010, .afdS 0x1 0x2A),
      (16, 0b1001101110001100, .afdrS 0xC),
      (16, 0b1101101011100011, .sfdS 0x5 0x63),
      (16, 0b1101101110010111, .sfdrS 0x17)] = true := by
  decide

/-- Words of long fixed point arithmetic (R102, R117, R120). -/
theorem test_decode_longFixed :
    decodes [
      (32, 0b10100101001100001100010011100110, .aduL 0x2 0x6 false false 0xC4E6),
      (32, 0b10100111001011110001100111000011, .aduhL 0x6 0x5 true true 0x19C3),
      (32, 0b10100111100010101111100111111101, .adurL 0x1 false true 0xF9FD),
      (32, 0b10100111110100111100000000110100, .aduhrL 0xA false true 0xC034),
      (32, 0b10101100100011100110100011010101, .adlL 0x1 0x1 true true 0x68D5),
      (32, 0b10101110000011011111111000000000, .adlhL 0x4 0x1 true false 0xFE00),
      (32, 0b10101111100111001100010110101100, .adlrL 0x3 true false 0xC5AC),
      (32, 0b10101111111000010101100000001100, .adlhrL 0xC false false 0x580C),
      (32, 0b11100110111011101010000100000001, .sbuL 0x5 0xD true true 0xA101),
      (32, 0b11100110111101111011111011001111, .sbuhL 0x5 0xE true true 0xBECF),
      (32, 0b11100111110011000100010001000111, .sburL 0x9 true false 0x4447),
      (32, 0b11100111101111110010101100000110, .sbuhrL 0x7 true true 0x2B06),
      (32, 0b11101101011111000110111001000000, .sblL 0x2 0xF true false 0x6E40),
      (32, 0b11101110011110010100110110010101, .sblhL 0x4 0xF false false 0x4D95),
      (32, 0b11101111110111100000111100010100, .sblrL 0xB true true 0xF14),
      (32, 0b11101111111110111100010111110110, .sblhrL 0xF false true 0xC5F6),
      (32, 0b11010110110000101001010001111000, .mulL 0x5 0x8 false true 0x9478),
      (32, 0b11010110011110010111001001010110, .mulhL 0x4 0xF false false 0x7256),
      (32, 0b11010111100100000001101111010100, .mulrL 0x2 false false 0x1BD4),
      (32, 0b11010111101000111000111010100101, .mulhrL 0x4 false true 0x8EA5),
      (32, 0b11110110000100000011001000000010, .dvdL 0x4 0x2 false false 0x3202),
      (32, 0b11110110000010111010111111101111, .dvdhL 0x4 0x1 false true 0xAFEF),
      (32, 0b11110111111000101110011101111010, .dvdrL 0xC false true 0xE77A),
      (32, 0b11110111101010110111111011011111, .dvdhrL 0x5 false true 0x7EDF)] = true := by
  decide

/-- Words of long floating point arithmetic (R102, R117, R120). -/
theorem test_decode_longFloat :
    decodes [
      (32, 0b10111100010110100110111001000100, .adfL 0x0 0xB false true 0x6E44),
      (32, 0b10111111111010100100001011101111, .adfrL 0xD false true 0x42EF),
      (32, 0b11111110100001101001101000110100, .sbfL 0x5 0x0 true true 0x9A34),
      (32, 0b11111111101101100011111001010010, .sbfrL 0x6 true true 0x3E52),
      (32, 0b10010110001100001001110111111010, .mlfL 0x4 0x6 false false false 0x9DFA),
      (32, 0b10010111111101001001111111011110, .mlfrL 0xE true false false 0x9FDE),
      (32, 0b10110101100100000110111000011000, .dvfL 0x3 0x2 false false false 0x6E18),
      (32, 0b10110111100001110001001110010010, .dvfrL 0x0 true true true 0x1392),
      (32, 0b10011100010011100000010011011110, .afdL 0x0 0x9 true true 0x4DE),
      (32, 0b10011111110011001101000100100000, .afdrL 0x9 true false 0xD120),
      (32, 0b11011110100100100000011111000000, .sfdL 0x5 0x2 false true 0x7C0),
      (32, 0b11011111100111000011110001111001, .sfdrL 0x3 true false 0x3C79)] = true := by
  decide

/-- Words of logical instructions, RTA and SAM (R101, R102, R117, R120). -/
theorem test_decode_logical :
    decodes [
      (16, 0b0111001001111110, .rtaS 0x4 0x7E),
      (32, 0b01110110000011011000010101011000, .rtaL 0x4 0x1 true false true 0x8558),
      (16, 0b1000100111111100, .samS 0x3 0x7C),
      (32, 0b10001110111101111111001101100001, .samL 0x5 0xE true true true 0xF361),
      (16, 0b1000000010100100, .andS 0x1 0x24),
      (32, 0b10000100010001110101110111001010, .andL 0x0 0x8 true true true 0x5DCA),
      (16, 0b1000001110000001, .andrS 0x1),
      (32, 0b10000111111000011100001001011111, .andrL 0xC false false true 0xC25F),
      (16, 0b1100000010110111, .lorS 0x1 0x37),
      (32, 0b11000110100001110111110011011000, .lorL 0x5 0x0 true true true 0x7CD8),
      (16, 0b1100001110111000, .lorrS 0x38),
      (32, 0b11000111110010000010101011000100, .lorrL 0x9 false false false 0x2AC4),
      (16, 0b1100100101001001, .exoS 0x2 0x49),
      (32, 0b11001111001110011111011111001001, .exoL 0x6 0x7 false false true 0xF7C9),
      (16, 0b1100101110101110, .exorS 0x2E),
      (32, 0b11001111110111100010000010111001, .exorL 0xB true true false 0x20B9)] = true := by
  decide

/-- Ignored bits may hold anything (R125): EMI with bits 9..15 set, SET with bits 9..11 set, DOA with bit 13 set. -/
theorem test_decode_ignored_bits :
    decodes [(16, 0b0000000011111111, .emi), (16, 0b0000001101110101, .setf 5),
      (16, 0b0100100010000100, .doa false 16 false)] = true := by
  decide

/-- Unassigned operation codes are refused: non-memory 0000 and 1111 (R416), long jumps 0000, 0001 with bit 9 set, 0110
with bits 8..9 set, 1000 with selector 0000 and 1111 (R124). -/
theorem test_decode_unassigned :
    [(16, 0b0000000000000000), (16, 0b0000011110000000), (32, 0b01100100000000000000000000000000),
      (32, 0b01100100010001000000000000000000), (32, 0b01100100010110000000000000000000),
      (32, 0b01100100001000000000000000000000), (32, 0b01100100001111000000000000000000)].all
      (fun e => decodeTableWord e.1 e.2 == none) = true := by
  decide

/-! ### Single steps, from spec/95_test_vectors.md

Each theorem is one vector: the start state, the word at pc, and what the vector shows of the end state (the bits it
leaves undetermined are not compared). -/

/-- A start state: the reset state with fields, index registers (by place) and memory words set. -/
def start (s : State) (xr : List (Nat × Addr)) (mem : List (Addr × Word32)) (halves : List (Addr × Half)) : State :=
  let s1 := s.setMem (mem.foldl (fun m e => m.putWord e.1 e.2) s.mem)
  let s2 := s1.setMem (halves.foldl (fun m e => m.putHalf e.1 e.2) s1.mem)
  State.mk s2.cfg s2.regA s2.regB s2.pc s2.ir s2.irHeld s2.oar
    (xr.foldl (fun v e => v.setIfInBounds e.1 e.2) s2.xrf) s2.sr s2.mr s2.mem s2.pending s2.inService s2.holdoff
    s2.halted s2.ioDeferred s2.steals s2.switches s2.testSignal s2.arrivals s2.busIn s2.ioLog s2.draws

/-- One step of a word placed at pc answers a state with a property. -/
def runs (s : State) (nbits w : Nat) (p : State → Bool) : Bool :=
  match step (s.withFetchWord nbits w) with
  | .next t => p t
  | _ => false

/-- One step of a word placed at pc stops with a fault. -/
def stops (s : State) (nbits w : Nat) (f : Fault) : Bool :=
  match step (s.withFetchWord nbits w) with
  | .fault g => f == g
  | _ => false

theorem test_lda_LS3 :
    runs { State.reset with regA := 0x11111111 } 32 0x14027FFF (fun t =>
      t.pc == 20002 && t.regA == 0x00007FFF && t.sr == 0) = true := by
  decide

theorem test_lda_LS9 :
    runs (start { State.reset with sr := 0x10 } [] [(16394, 0xCAFEF00D)] []) 16 0x1005 (fun t =>
      t.pc == 20001 && t.regA == 0xCAFEF00D && t.sr == 0x10) = true := by
  decide

theorem test_ldah_LS6 :
    runs (start { State.reset with regA := 0x11111111 } [] [(21000, 0x89ABCDEF)] []) 32 0x14015209 (fun t =>
      t.pc == 20002 && t.regA == 0xCDEF0000 && t.sr == 0) = true := by
  decide

theorem test_ldah_LS10 :
    runs (start { State.reset with sr := 0x30 } [] [(16388, 0xCAFEF00D)] []) 16 0x1005 (fun t =>
      t.pc == 20001 && t.regA == 0xF00D0000 && t.sr == 0x30) = true := by
  decide

theorem test_ldb_LS12 :
    runs (start State.reset [] [(21000, 0x89ABCDEF)] []) 32 0x54005208 (fun t =>
      t.pc == 20002 && t.regB == 0x89ABCDEF && t.sr == 0) = true := by
  decide

theorem test_ldbh_LS15 :
    runs (start { State.reset with regB := 0x11111111 } [] [(21000, 0x89ABCDEF)] []) 32 0x54015209 (fun t =>
      t.pc == 20002 && t.regB == 0xCDEF0000 && t.sr == 0) = true := by
  decide

theorem test_ldx_LS18 :
    runs (start State.reset [(1, 4)] [] []) 32 0x5C9AFFFE (fun t =>
      t.pc == 20002 && t.xrf.get 3 == 65538 && t.sr == 0) = true := by
  decide

theorem test_ldx_LS24 :
    runs (start { State.reset with sr := 0x2 } [] [(21000, 0x00000005)] []) 32 0x5C185208 (fun t =>
      t.pc == 20002 && t.xrf.get 19 == 5 && t.sr == 0x2) = true := by
  decide

theorem test_lae_EA4 :
    runs { State.reset with sr := 0x30 } 16 0x3005 (fun t =>
      t.pc == 20001 && t.regA == 0x00004005 && t.sr == 0x30) = true := by
  decide

theorem test_lae_EA6 :
    runs (start State.reset [(1, 262143), (2, 262143)] [] []) 32 0x3490FFFF (fun t =>
      t.pc == 20002 && t.regA == 0x0000FFFD && t.sr == 0) = true := by
  decide

theorem test_lds_LS30 :
    runs (start State.reset [] [(21000, 0x01000000)] []) 32 0x9C015208 (fun t =>
      t.pc == 20002 && t.sr == 0x200) = true := by
  decide

theorem test_lds_LS28 :
    runs { State.reset with sr := 0x9280 } 32 0x9C030080 (fun t =>
      t.pc == 20002 && t.sr == 0x9201) = true := by
  decide

theorem test_ldi_LS37 :
    runs (start { State.reset with mr := 0x60, pending := 0x60 } [] [(21000, 0x00200000)] []) 32 0xFC015208 (fun t =>
      t.pc == 20002 && t.sr == 0 && t.mr == 0x40 && t.pending == 0x40) = true := by
  decide

theorem test_ldi_LS34 :
    runs State.reset 32 0xFC03FFFF (fun t =>
      t.pc == 20002 && t.sr == 0 && t.mr == 0xFFFE) = true := by
  decide

theorem test_sta_LS38 :
    runs { State.reset with regA := 0x12345678 } 32 0x3C005208 (fun t =>
      t.pc == 20002 && t.mem.word 21000 == 0x12345678 && t.sr == 0) = true := by
  decide

theorem test_sta_LS55 :
    stops { State.reset with regA := 0x00000001 } 32 0x3C006000 .protectedWrite = true := by
  decide

theorem test_stah_LS39 :
    runs (start { State.reset with regA := 0x12345678 } [] [(21000, 0xAAAABBBB)] []) 32 0x3C015209 (fun t =>
      t.pc == 20002 && t.mem.half 21001 == 0x1234 && t.sr == 0) = true := by
  decide

theorem test_stb_LS41 :
    runs { State.reset with regB := 0xCAFEBABE } 32 0x7C005208 (fun t =>
      t.pc == 20002 && t.mem.word 21000 == 0xCAFEBABE && t.sr == 0) = true := by
  decide

theorem test_stbh_LS42 :
    runs { State.reset with regB := 0xCAFEBABE } 32 0x7C015208 (fun t =>
      t.pc == 20002 && t.mem.half 21000 == 0xCAFE && t.sr == 0) = true := by
  decide

theorem test_sth_LS43 :
    runs { State.reset with regA := 0x12345678 } 32 0x44005209 (fun t =>
      t.pc == 20002 && t.mem.half 21001 == 0x1234 && t.sr == 0) = true := by
  decide

theorem test_sth_LS44 :
    runs { State.reset with regA := 0x12345678, sr := 0x10 } 16 0x4003 (fun t =>
      t.pc == 20001 && t.mem.half 16390 == 0x1234 && t.sr == 0x10) = true := by
  decide

theorem test_adu_FX2 :
    runs { State.reset with regA := 0x00000005, sr := 0x3000 } 32 0xA4020003 (fun t =>
      t.pc == 20002 && t.regA == 0x00000009 && t.regB == 0x00000000 && t.sr == 0x0) = true := by
  decide

theorem test_adu_FX6 :
    runs { State.reset with regA := 0xFFFFFFFF, sr := 0x3000 } 32 0xA4020000 (fun t =>
      t.pc == 20002 && t.regA == 0x00000000 && t.regB == 0x00000000 && t.sr == 0x0) = true := by
  decide

theorem test_aduh_FX7 :
    runs { State.reset with regA := 0x00011234 } 32 0xA4030001 (fun t =>
      t.pc == 20002 && t.regA == 0x00021234 && t.regB == 0x00000000 && t.sr == 0) = true := by
  decide

theorem test_adur_FX13 :
    runs (start { State.reset with regA := 0x00000001, sr := 0x3040 } [] [(15872, 0x00000029)] []) 32
        0xA7803E00 (fun t =>
      t.pc == 20002 && t.regA == 0x00000001 && t.regB == 0x00000000 && t.mem.word 15872 == 0x0000002B &&
      t.sr == 0x40) = true := by
  decide

theorem test_adur_FX12 :
    runs (start { State.reset with regA := 0x00000001, sr := 0x3040 } [] [(21000, 0x00000029)] []) 32
        0xA7805208 (fun t =>
      t.pc == 20002 && t.regA == 0x00000001 && t.regB == 0x00000000 && t.sr == 0x3040) = true := by
  decide

theorem test_aduhr_FX15 :
    runs (start { State.reset with regA := 0x00020000, sr := 0x40 } [] [] [(15873, 0x0040)]) 32 0xA7813E01 (fun t =>
      t.pc == 20002 && t.regA == 0x00020000 && t.regB == 0x00000000 && t.mem.half 15873 == 0x0042 && t.sr == 0x40) = true := by
  decide

theorem test_adl_FX16 :
    runs { State.reset with regB := 0xFFFFFFFF } 32 0xAC020001 (fun t =>
      t.pc == 20002 && t.regA == 0x00000000 && t.regB == 0x00000000 && t.sr == 0x3000) = true := by
  decide

theorem test_adlh_FX19 :
    runs { State.reset with regB := 0xFFFF0005 } 32 0xAC030001 (fun t =>
      t.pc == 20002 && t.regA == 0x00000000 && t.regB == 0x00000005 && t.sr == 0x3000) = true := by
  decide

theorem test_adlr_FX20 :
    runs (start { State.reset with regB := 0xFFFFFFFF, sr := 0x40 } [] [(15874, 0x00000001)] []) 32 0xAF803E02 (fun t =>
      t.pc == 20002 && t.regA == 0x00000000 && t.regB == 0xFFFFFFFF && t.mem.word 15874 == 0x00000000 &&
      t.sr == 0x3040) = true := by
  decide

theorem test_adlhr_FX21 :
    runs (start { State.reset with regB := 0x00010000, sr := 0x40 } [] [] [(15874, 0xFFFF)]) 32 0xAF813E02 (fun t =>
      t.pc == 20002 && t.regA == 0x00000000 && t.regB == 0x00010000 && t.mem.half 15874 == 0x0000 && t.sr == 0x3040) = true := by
  decide

theorem test_sbu_FX24 :
    runs { State.reset with regA := 0x0000000A, sr := 0x3000 } 32 0xE4020003 (fun t =>
      t.pc == 20002 && t.regA == 0x00000006 && t.regB == 0x00000000 && t.sr == 0x0) = true := by
  decide

theorem test_sbuh_FX26 :
    runs { State.reset with regA := 0x00050000 } 32 0xE4030002 (fun t =>
      t.pc == 20002 && t.regA == 0x00030000 && t.regB == 0x00000000 && t.sr == 0) = true := by
  decide

theorem test_sbur_FX27 :
    runs (start { State.reset with regA := 0x00000001, sr := 0x40 } [] [(15872, 0x00000029)] []) 32 0xE7803E00 (fun t =>
      t.pc == 20002 && t.regA == 0x00000001 && t.regB == 0x00000000 && t.mem.word 15872 == 0xFFFFFFD8 &&
      t.sr == 0x40) = true := by
  decide

theorem test_sbuhr_FX28 :
    runs (start { State.reset with regA := 0x00030000, sr := 0x40 } [] [] [(15872, 0x0001)]) 32 0xE7813E00 (fun t =>
      t.pc == 20002 && t.regA == 0x00030000 && t.regB == 0x00000000 && t.mem.half 15872 == 0x0002 && t.sr == 0x40) = true := by
  decide

theorem test_sbl_FX29 :
    runs { State.reset with regB := 0x00000000 } 32 0xEC020001 (fun t =>
      t.pc == 20002 && t.regA == 0x00000000 && t.regB == 0xFFFFFFFF && t.sr == 0x3000) = true := by
  decide

theorem test_sblh_FX31 :
    runs { State.reset with regB := 0x00010000 } 32 0xEC030002 (fun t =>
      t.pc == 20002 && t.regA == 0x00000000 && t.regB == 0xFFFF0000 && t.sr == 0x3000) = true := by
  decide

theorem test_sblr_FX32 :
    runs (start { State.reset with regB := 0x00000000, sr := 0x40 } [] [(15872, 0x00000001)] []) 32 0xEF803E00 (fun t =>
      t.pc == 20002 && t.regA == 0x00000000 && t.regB == 0x00000000 && t.mem.word 15872 == 0xFFFFFFFF &&
      t.sr == 0x3040) = true := by
  decide

theorem test_sblhr_FX33 :
    runs (start { State.reset with regB := 0x00010000, sr := 0x40 } [] [] [(15872, 0x0002)]) 32 0xEF813E00 (fun t =>
      t.pc == 20002 && t.regA == 0x00000000 && t.regB == 0x00010000 && t.mem.half 15872 == 0xFFFF && t.sr == 0x3040) = true := by
  decide

theorem test_mul_FX36 :
    runs (start { State.reset with regA := 0x80000000 } [] [(21000, 0x80000000)] []) 32 0xD4005208 (fun t =>
      t.pc == 20002 && t.regA == 0x80000000 && t.regB == 0x00000001 && t.sr == 0) = true := by
  decide

theorem test_mul_FX37 :
    runs (start { State.reset with regA := 0xC0000000 } [] [(21000, 0x40000000)] []) 32 0xD4005208 (fun t =>
      t.pc == 20002 && t.regA == 0xE0000000 && t.regB == 0x00000001 && t.sr == 0) = true := by
  decide

theorem test_mulr_FX44 :
    runs (start { State.reset with regA := 0x40000000, sr := 0x40 } [] [(15872, 0x40000000)] []) 32 0xD7803E00 (fun t =>
      t.pc == 20002 && t.regA == 0x20000000 && t.regB == 0x00000000 && t.mem.word 15872 == 0x20000000 &&
      t.sr == 0x40) = true := by
  decide

theorem test_mulr_FX45 :
    runs (start { State.reset with regA := 0x40000000, sr := 0x40 } [] [(21000, 0x40000000)] []) 32 0xD7805208 (fun t =>
      t.pc == 20002 && t.regA == 0x20000000 && t.regB == 0x00000000 && t.sr == 0x40) = true := by
  decide

theorem test_dvd_FX49 :
    runs (start { State.reset with regA := 0x30000000, regB := 0x00000000 } [] [(21000, 0xC0000000)] []) 32
        0xF4005208 (fun t =>
      t.pc == 20002 && t.regA == 0xA0000000 && t.sr == 0) = true := by
  decide

theorem test_dvd_FX50 :
    runs (start { State.reset with regA := 0x00000000, regB := 0x0000001E } [] [(21000, 0x00000005)] []) 32
        0xF4005208 (fun t =>
      t.pc == 20002 && t.regA == 0x00000003 && t.sr == 0) = true := by
  decide

theorem test_and_LG3 :
    runs (start { State.reset with regA := 0x12345678, sr := 0x30 } [] [] [(16384, 0xFF00)]) 16 0x8000 (fun t =>
      t.pc == 20001 && t.regA == 0x12000000 && t.sr == 0x30) = true := by
  decide

theorem test_and_LG2 :
    runs { State.reset with regA := 0x12345678 } 32 0x84028000 (fun t =>
      t.pc == 20002 && t.regA == 0x12340000 && t.sr == 0) = true := by
  decide

theorem test_andr_LG4 :
    runs (start { State.reset with regA := 0x0000FFFF, sr := 0x40 } [] [(15872, 0x12345678)] []) 32 0x87803E00 (fun t =>
      t.pc == 20002 && t.regA == 0x0000FFFF && t.mem.word 15872 == 0x00005678 && t.sr == 0x40) = true := by
  decide

theorem test_andr_LG5 :
    runs (start { State.reset with regA := 0x0000FFFF, sr := 0x40 } [] [(21000, 0x12345678)] []) 32 0x87805208 (fun t =>
      t.pc == 20002 && t.regA == 0x0000FFFF && t.sr == 0x40) = true := by
  decide

theorem test_lor_LG7 :
    runs { State.reset with regA := 0x00000001 } 32 0xC402FFF0 (fun t =>
      t.pc == 20002 && t.regA == 0xFFFFFFF1 && t.sr == 0) = true := by
  decide

theorem test_lorr_LG8 :
    runs (start { State.reset with regA := 0x0000000F, sr := 0x40 } [] [(15872, 0x000000F0)] []) 32 0xC7803E00 (fun t =>
      t.pc == 20002 && t.regA == 0x0000000F && t.mem.word 15872 == 0x000000FF && t.sr == 0x40) = true := by
  decide

theorem test_exo_LG9 :
    runs { State.reset with regA := 0x0F0F0F0F } 32 0xCC02FFFF (fun t =>
      t.pc == 20002 && t.regA == 0xF0F0F0F0 && t.sr == 0) = true := by
  decide

theorem test_exor_LG11 :
    runs (start { State.reset with regA := 0xFFFFFFFF, sr := 0x40 } [] [(15872, 0x0000FFFF)] []) 32 0xCF803E00 (fun t =>
      t.pc == 20002 && t.regA == 0xFFFFFFFF && t.mem.word 15872 == 0xFFFF0000 && t.sr == 0x40) = true := by
  decide

theorem test_rta_LG13 :
    runs (start State.reset [] [(21000, 0xFFFC4E30)] []) 32 0x74005208 (fun t =>
      t.pc == 20016 && t.sr == 0) = true := by
  decide

theorem test_rta_INT9 :
    runs (start { State.reset with pc := 20480, sr := 0x8000, mr := 0x20, inService := 0x20 } [] [(32746,
        0x00004E21)] []) 32 0x74007FEA (fun t =>
      t.pc == 20001 && t.sr == 0x8000 && t.mr == 0x20 && t.inService == 0x0) = true := by
  decide

theorem test_sam_LG17 :
    runs { State.reset with regA := 0x00000004 } 32 0x8C020004 (fun t =>
      t.pc == 20004 && t.sr == 0) = true := by
  decide

theorem test_sam_LG21 :
    runs (start { State.reset with regA := 0x00000002, sr := 0x10 } [] [(16384, 0x00000001)] []) 16 0x8800 (fun t =>
      t.pc == 20001 && t.sr == 0x10) = true := by
  decide

theorem test_slld_SH5 :
    runs (start { State.reset with regA := 0x12345678, regB := 0x9ABCDEF0 } [(1, 250)] [] []) 16 0x088A (fun t =>
      t.pc == 20001 && t.regA == 0x23456789 && t.regB == 0xABCDEF00 && t.sr == 0) = true := by
  decide

theorem test_slcd_SH6 :
    runs { State.reset with regA := 0x80000000, regB := 0x00000001 } 16 0x0821 (fun t =>
      t.pc == 20001 && t.regA == 0x00000000 && t.regB == 0x00000003 && t.sr == 0) = true := by
  decide

theorem test_sll_SH9 :
    runs { State.reset with regA := 0x40000001, regB := 0xFFFFFFFF } 16 0x0842 (fun t =>
      t.pc == 20001 && t.regA == 0x00000004 && t.regB == 0xFFFFFFFF && t.sr == 0) = true := by
  decide

theorem test_srld_SH11 :
    runs { State.reset with regA := 0x00000003, regB := 0x00000000 } 16 0x0861 (fun t =>
      t.pc == 20001 && t.regA == 0x00000001 && t.regB == 0x80000000 && t.sr == 0) = true := by
  decide

theorem test_srad_SH13 :
    runs { State.reset with regA := 0x80000000, regB := 0x00000000 } 16 0x0C04 (fun t =>
      t.pc == 20001 && t.regA == 0xF8000000 && t.regB == 0x00000000 && t.sr == 0) = true := by
  decide

theorem test_srcd_SH16 :
    runs { State.reset with regA := 0x00000000, regB := 0x00000001 } 16 0x0C21 (fun t =>
      t.pc == 20001 && t.regA == 0x80000000 && t.regB == 0x00000000 && t.sr == 0) = true := by
  decide

theorem test_sra_SH17 :
    runs { State.reset with regA := 0xFFFFFFF0, regB := 0x11111111 } 16 0x0C42 (fun t =>
      t.pc == 20001 && t.regA == 0xFFFFFFFC && t.regB == 0x11111111 && t.sr == 0) = true := by
  decide

theorem test_src_SH21 :
    runs (start { State.reset with regA := 0x12345678 } [(1, 36)] [] []) 16 0x0CE0 (fun t =>
      t.pc == 20001 && t.regA == 0x81234567 && t.regB == 0x00000000 && t.sr == 0) = true := by
  decide

theorem test_adf_FL5 :
    runs (start { State.reset with regA := 0x40200000 } [] [(21000, 0x40200000)] []) 32 0xBC005208 (fun t =>
      t.pc == 20002 && t.regA == 0x40400000 && t.regB == 0x00000000 && t.sr == 0) = true := by
  decide

theorem test_adf_FL3 :
    runs (start { State.reset with regA := 0x40C00000 } [] [(21000, 0x3FE00000)] []) 32 0xBC005208 (fun t =>
      t.pc == 20002 && t.regA == 0x40D80000 && t.regB == 0x00000000 && t.sr == 0) = true := by
  decide

theorem test_adfr_FL7 :
    runs (start { State.reset with regA := 0x40400000, sr := 0x40 } [] [(15872, 0x40400000)] []) 32 0xBF803E00 (fun t =>
      t.pc == 20002 && t.regA == 0x40C00000 && t.regB == 0x00000000 && t.mem.word 15872 == 0x40C00000 &&
      t.sr == 0x40) = true := by
  decide

theorem test_sbf_FL9 :
    runs (start { State.reset with regA := 0x40400000 } [] [(21000, 0x40C00000)] []) 32 0xFC005208 (fun t =>
      t.pc == 20002 && t.regA == 0xBF800000 && t.regB == 0x00000000 && t.sr == 0) = true := by
  decide

theorem test_sbfr_FL10 :
    runs (start { State.reset with regA := 0x40C00000, sr := 0x40 } [] [(15872, 0x40400000)] []) 32 0xFF803E00 (fun t =>
      t.pc == 20002 && t.regA == 0x40400000 && t.regB == 0x00000000 && t.mem.word 15872 == 0x40400000 &&
      t.sr == 0x40) = true := by
  decide

theorem test_mlf_FL12 :
    runs (start { State.reset with regA := 0xC0000000 } [] [(21000, 0xC0000000)] []) 32 0x94005208 (fun t =>
      t.pc == 20002 && t.regA == 0x40C00000 && t.sr == 0) = true := by
  decide

theorem test_mlf_FL15 :
    runs (start { State.reset with regA := 0x40200000 } [] [(21000, 0x40400000)] []) 32 0x94005208 (fun t =>
      t.pc == 20002 && t.regA == 0x00000000 && t.sr == 0) = true := by
  decide

theorem test_dvf_FL19 :
    runs (start { State.reset with regA := 0x3FE00000, regB := 0x00000000 } [] [(21000, 0x40400000)] []) 32
        0xB4005208 (fun t =>
      t.pc == 20002 && t.regA == 0x40600000 && t.sr == 0) = true := by
  decide

theorem test_afd_FL23 :
    runs (start { State.reset with regA := 0x40C00000, regB := 0x00000000 } [] [(21000, 0x29C00000), (21002,
        0x00000000)] []) 32 0x9C005208 (fun t =>
      t.pc == 20002 && t.regA == 0x40C00000 && t.sr == 0) = true := by
  decide

theorem test_afd_FL26 :
    runs (start { State.reset with regA := 0x40C00000, regB := 0x00000000, sr := 0x40 } [] [(15872,
        0x40400000), (15874, 0x00000000)] []) 32 0x9F803E00 (fun t =>
      t.pc == 20002 && t.regA == 0x40E00000 && t.mem.word 15872 == 0x40E00000 && t.sr == 0x40) = true := by
  decide

theorem test_sfd_FL24 :
    runs (start { State.reset with regA := 0x40C00000, regB := 0x00000100 } [] [(21000, 0x29C00000), (21002,
        0x00000000)] []) 32 0xDC005208 (fun t =>
      t.pc == 20002 && t.regA == 0x40C00000 && t.sr == 0) = true := by
  decide

theorem test_icn_IX4 :
    runs (start { State.reset with sr := 0x10 } [(3, 8)] [(16384, 0x00000007)] []) 16 0x2180 (fun t =>
      t.pc == 20003 && t.sr == 0x10) = true := by
  decide

theorem test_icl_IX5 :
    runs (start State.reset [(3, 7)] [] []) 32 0x241B000A (fun t =>
      t.pc == 20004 && t.sr == 0) = true := by
  decide

theorem test_imn_IX10 :
    runs (start State.reset [(2, 0)] [] []) 32 0x6C130001 (fun t =>
      t.pc == 20002 && t.xrf.get 2 == 262143 && t.sr == 0) = true := by
  decide

theorem test_imn_IX11 :
    runs (start { State.reset with sr := 0x10 } [(2, 10)] [(16384, 0x00000003)] []) 16 0x6900 (fun t =>
      t.pc == 20001 && t.xrf.get 2 == 7 && t.sr == 0x10) = true := by
  decide

theorem test_imp_IX14 :
    runs (start State.reset [(1, 5), (2, 10)] [] []) 32 0x6C920002 (fun t =>
      t.pc == 20002 && t.xrf.get 2 == 17 && t.sr == 0) = true := by
  decide

theorem test_jru_JP4 :
    runs { State.reset with pc := 16384 } 16 0x60FF (fun t =>
      t.pc == 16257 && t.sr == 0) = true := by
  decide

theorem test_jrn_JP5 :
    runs { State.reset with regA := 0x00000001 } 16 0x6184 (fun t =>
      t.pc == 19996 && t.sr == 0) = true := by
  decide

theorem test_jrg_JP7 :
    runs { State.reset with regA := 0x00000000 } 16 0x6202 (fun t =>
      t.pc == 20002 && t.sr == 0) = true := by
  decide

theorem test_jrl_JP9 :
    runs { State.reset with regA := 0x80000000 } 16 0x6302 (fun t =>
      t.pc == 20002 && t.sr == 0) = true := by
  decide

theorem test_jgu_JP12 :
    runs State.reset 32 0x6433FFFF (fun t =>
      t.pc == 262143 && t.sr == 0) = true := by
  decide

theorem test_jan_JP13 :
    runs { State.reset with regA := 0x00000005 } 32 0x65205000 (fun t =>
      t.pc == 20480 && t.sr == 0) = true := by
  decide

theorem test_jag_JP15 :
    runs { State.reset with regA := 0x7FFFFFFF } 32 0x66205000 (fun t =>
      t.pc == 20480 && t.sr == 0) = true := by
  decide

theorem test_jal_JP17 :
    runs { State.reset with regA := 0xFFFFFFFF } 32 0x67205000 (fun t =>
      t.pc == 20480 && t.sr == 0) = true := by
  decide

theorem test_jgf_JP19 :
    runs { State.reset with sr := 0x100 } 32 0x64485000 (fun t =>
      t.pc == 20480 && t.sr == 0x100) = true := by
  decide

theorem test_jgf_JP20 :
    runs { State.reset with sr := 0x100 } 32 0x66085000 (fun t =>
      t.pc == 20002 && t.sr == 0x100) = true := by
  decide

theorem test_jgs_JP23 :
    runs { State.reset with sr := 0x1000 } 32 0x67105000 (fun t =>
      t.pc == 20480 && t.sr == 0x1000) = true := by
  decide

theorem test_jgw_JP26 :
    runs { State.reset with switches := 2 } 32 0x65185000 (fun t =>
      t.pc == 20480 && t.sr == 0) = true := by
  decide

theorem test_emi_NM2 :
    runs State.reset 16 0x0080 (fun t =>
      t.pc == 20001 && t.sr == 0x4000) = true := by
  decide

theorem test_dpi_NM5 :
    runs { State.reset with sr := 0x8000 } 16 0x0100 (fun t =>
      t.pc == 20001 && t.sr == 0x0) = true := by
  decide

theorem test_dmi_NM3 :
    runs { State.reset with sr := 0x4000 } 16 0x0180 (fun t =>
      t.pc == 20001 && t.sr == 0x0) = true := by
  decide

theorem test_epi_NM4 :
    runs State.reset 16 0x0200 (fun t =>
      t.pc == 20001 && t.sr == 0x8000) = true := by
  decide

theorem test_hlt_NM28 :
    runs { State.reset with testSignal := true } 16 0x0280 (fun t =>
      t.pc == 20001 && t.halted && t.sr == 0) = true := by
  decide

theorem test_hlt_NM27 :
    runs State.reset 16 0x0280 (fun t =>
      t.pc == 20001 && t.sr == 0) = true := by
  decide

theorem test_setf_NM6 :
    runs State.reset 16 0x0305 (fun t =>
      t.pc == 20001 && t.sr == 0x500) = true := by
  decide

theorem test_rstf_NM7 :
    runs { State.reset with sr := 0xF00 } 16 0x038A (fun t =>
      t.pc == 20001 && t.sr == 0x500) = true := by
  decide

theorem test_cfx_NM18 :
    runs { State.reset with regA := 0xC0A00000, regB := 0x00000000 } 16 0x0400 (fun t =>
      t.pc == 20001 && t.regA == 0xFFFFFFFE && t.regB == 0x80000000 && t.sr == 0) = true := by
  decide

theorem test_cxf_NM23 :
    runs { State.reset with regA := 0xFFFFFFFF, regB := 0x80000000 } 16 0x0480 (fun t =>
      t.pc == 20001 && t.regA == 0xBF800000 && t.sr == 0) = true := by
  decide

theorem test_eab_NM11 :
    runs { State.reset with regA := 0x11111111, regB := 0x22222222 } 16 0x0500 (fun t =>
      t.pc == 20001 && t.regA == 0x22222222 && t.regB == 0x11111111 && t.sr == 0) = true := by
  decide

theorem test_shm_NM9 :
    runs State.reset 16 0x0580 (fun t =>
      t.pc == 20001 && t.sr == 0x20) = true := by
  decide

theorem test_rhm_NM10 :
    runs { State.reset with sr := 0x20 } 16 0x0600 (fun t =>
      t.pc == 20001 && t.sr == 0x0) = true := by
  decide

theorem test_lxa_NM12 :
    runs { State.reset with regA := 0xFFFC0010 } 16 0x0689 (fun t =>
      t.pc == 20001 && t.xrf.get 9 == 16 && t.sr == 0) = true := by
  decide

theorem test_nop_NM31 :
    runs { State.reset with regA := 0x00000007 } 16 0x077F (fun t =>
      t.pc == 20001 && t.sr == 0) = true := by
  decide

theorem test_doa_IO1 :
    runs { State.reset with regA := 0x00000041 } 16 0x4881 (fun t =>
      t.pc == 20001 && t.sr == 0 && t.ioLog == [.out 16 false true 0x00000041]) = true := by
  decide

theorem test_dia_IO3 :
    runs { State.reset with mr := 0x4000, pending := 0x4000, busIn := [0x00000041] } 16 0x488B (fun t =>
      t.pc == 20001 && t.regA == 0x00000041 && t.sr == 0 && t.mr == 0x4000 && t.pending == 0x0) = true := by
  decide

theorem test_dom_IO6 :
    runs (start State.reset [] [(21000, 0x84005300), (21248, 0x00000077)] []) 32 0x4C2C5208 (fun t =>
      t.pc == 20002 && t.sr == 0 && t.ioLog == [.out 5 false false 0x00000077]) = true := by
  decide

theorem test_dim_IO7 :
    runs { State.reset with busIn := [0xDEADBEEF] } 32 0x4C2A5208 (fun t =>
      t.pc == 20002 && t.mem.word 21000 == 0xDEADBEEF && t.sr == 0) = true := by
  decide

theorem test_mmf_BK1 :
    runs (start { State.reset with regA := 0xFFFF0000, regB := 0x00003FFE } [(0, 15870)] [(16384, 0x12345678),
        (16386, 0x9ABCDEF0)] []) 16 0x2C02 (fun t =>
      t.pc == 20001 && t.regB == 0x00004002 && t.mem.word 15872 == 0x12340000 && t.mem.word 15874 == 0x9ABC0000 &&
      t.xrf.get 0 == 15874 && t.sr == 0) = true := by
  decide

theorem test_mmf_BK4 :
    runs (start { State.reset with regA := 0xFFFFFFFF, regB := 0x00003FFE } [(0, 15870), (2, 1)] [(16384,
        0x00000001), (16386, 0x00000002), (16388, 0x00000003)] []) 16 0x2D02 (fun t =>
      t.pc == 20001 && t.regB == 0x00004004 && t.mem.word 15872 == 0x00000001 && t.mem.word 15874 == 0x00000002 &&
      t.mem.word 15876 == 0x00000003 && t.xrf.get 0 == 15876 && t.sr == 0) = true := by
  decide

theorem test_mfm_BK2 :
    runs (start { State.reset with regA := 0xFFFFFFFF, regB := 0x0000400E } [(0, 15870)] [(15872, 0x00000007)]
        []) 16 0x2801 (fun t =>
      t.pc == 20001 && t.regB == 0x00004010 && t.mem.word 16400 == 0x00000007 && t.xrf.get 0 == 15872 && t.sr == 0) = true := by
  decide

/-- The 56 bits of a double precision result, for which a step's B cannot be evaluated (its last byte is free):
vectors V-FL14, V-FL23, V-NM24. -/
theorem test_double_results :
    State.reset.round56 ((factor32 0x407FFFFF).mul (factor32 0x407FFFFF)) false = some 0x407FFFFE000002 ∧
      State.reset.round56 ((value64 0x40C0000000000000).add (value64 0x29C0000000000000)) false =
        some 0x40C00000000001 ∧
      State.reset.round56 (fixedValue 0x0000000060000000) false = some 0x3FE00000000000 := by
  decide

/-! ### Words with free bits, and interrupts -/

/-- V-LS47, V-LS48, V-LS49, T9: the words STI and STS store, the undetermined bits shown as 0. -/
theorem test_sti_sts_words :
    mrWord 0x8001 0 = 0x40008000 ∧ srWord 0x1000 0 = 0x08000000 ∧ srWord 0x1020 0 = 0x08001000 := by
  decide

/-- V-LS45: STX stores the register in bits 14..31. -/
theorem test_stx_LS45 :
    (({ State.reset with xrf := State.reset.xrf.set 3 291 } : State).indexWord 3).extractLsb' 0 18 = 291 := by
  have e : ∀ (a : BitVec 14) (b : Addr), (a ++ b).extractLsb' 0 18 = b := by
    intro a b
    apply BitVec.eq_of_getLsbD_eq
    intro k hk
    simp only [BitVec.getLsbD_extractLsb', BitVec.getLsbD_append]
    simp [hk]
  exact e _ _

/-- V-JP28: JS goes to the effective address + 2; V-JP31, V-JP32: a pointer with M = 1, an odd subroutine address. -/
theorem test_js_JP28 :
    runs (start State.reset [] [(20480, 0x84005300)] []) 32 0x64045000 (fun t => t.pc == 20482 && t.oar == 20480) &&
      stops (start State.reset [] [(20480, 0x84025300)] []) 32 0x64045000 .immediateOnStore &&
      stops State.reset 32 0x64045001 .misaligned = true := by
  decide

/-- V-MULH (V-FX42, V-FX43), bits 0..30 of A: only the left halves multiply. -/
theorem test_mulh_products :
    BitVec.ofInt 31 ((0x6000 : Half).toInt * (0x4000 : Half).toInt) = (0x30000000 : Word32).extractLsb' 1 31 ∧
      BitVec.ofInt 31 ((0x8000 : Half).toInt * (0x8000 : Half).toInt) = (0x80000000 : Word32).extractLsb' 1 31 := by
  decide

/-- The example of R224: 0.375 / 0.5 = 0.75 on the left halves. -/
theorem test_dvdh_example : quotientHalf 0x30000000 0x4000 = 0x6000 := by
  decide

/-- V-INT1, V-INT2, V-INT3: a request of level 5 is taken, lost, or remembered. -/
theorem test_interrupt_INT1 :
    (let a : Arrival := ⟨0x20, [], none, none, false⟩
     runs { State.reset with sr := 0x8000, mr := 0x20, arrivals := [a] } 16 0x0700 (fun t =>
        t.pc == 32682 && t.inService == 0x20 && t.pending == 0 && t.holdoff == 2) &&
      runs { State.reset with sr := 0x8000, arrivals := [a] } 16 0x0700 (fun t => t.pc == 20001 && t.pending == 0) &&
      runs { State.reset with mr := 0x20, arrivals := [a] } 16 0x0700 (fun t =>
        t.pc == 20001 && t.pending == 0x20)) = true := by
  decide

/-- V-INT5, V-INT12, V-INT13: the higher level is taken first; the same and a lower level are held. -/
theorem test_interrupt_INT5 :
    (let a (l : BitVec 16) : Arrival := ⟨l, [], none, none, false⟩
     let enabled : State := { State.reset with sr := 0x8000 }
     runs { enabled with mr := 0x220, arrivals := [a 0x220] } 16 0x0700 (fun t =>
        t.pc == 32690 && t.pending == 0x20 && t.inService == 0x200) &&
      runs { enabled with mr := 0x20, inService := 0x20, arrivals := [a 0x20] } 16 0x0700 (fun t =>
        t.pc == 20001 && t.pending == 0x20) &&
      runs { enabled with mr := 0x30, inService := 0x20, arrivals := [a 0x10] } 16 0x0700 (fun t =>
        t.pc == 20001 && t.pending == 0x10)) = true := by
  decide

/-- V-EA15, V-EA16 in small: a chain of pointers that ends is followed, one that runs into itself stops (R114). -/
theorem test_chain_EA16 :
    runs (start State.reset [] [(21000, 0x8404520A), (21002, 0x84005400)] []) 32 0x34045208 (fun t =>
        t.regA == 0x5400) &&
      stops (start State.reset [] [(21000, 0x84045208)] []) 32 0x34045208 .tooManyLevels = true := by
  decide

/-- V-FX14, V-LS54, V-FL28, V-LG12, V-LG16, V-NM14, V-NM29, V-IO9, V-BK5, V-EA13, V-EA14, V-EA18: each stop by name. -/
theorem test_stops_by_name :
    (stops State.reset 32 0xA7820005 .returnImmediate && stops State.reset 32 0x5C195208 .halfOnIndex &&
      stops State.reset 32 0xBC025208 .immediateOnFloat && stops State.reset 32 0x84035208 .halfOnLogical &&
      stops State.reset 32 0x74025208 .designatorOnRta && stops State.reset 16 0x0680 .lxaZero &&
      stops State.reset 16 0x0000 .unassignedOpcode &&
      stops (start State.reset [] [(21000, 0x84025300)] []) 32 0x4C2C5208 .immediateOnIo &&
      stops (start { State.reset with regB := 0x3FFE } [(0, 16382)] [] []) 16 0x2C01 .blockOutsideFast &&
      stops State.reset 32 0x14065208 .immediateAndIndirect && stops State.reset 32 0x14055208 .halfBeforeLast &&
      stops State.reset 32 0x14003000 .nonexistentMemory) = true := by
  decide

/-! ### The I/O unit between two accesses -/

/-- Between the read and the store of ADUR the I/O unit writes the cell and the sum still goes there (R68, R202); with
SR14 = 0 it waits (R80). -/
theorem test_io_between_accesses :
    ((match exec (.adurL 0 false false 0) ((start { State.reset with sr := 0x4000, regA := 1 } [(7, 15872)]
          [(15872, 5)] []).setSteals [[], [⟨15872, 99⟩, ⟨15874, 7⟩]]) with
        | .next t => t.mem.word 15872 == 6 && t.mem.word 15874 == 7 && t.steals == []
        | _ => false) &&
      (match exec (.adurL 0 false false 0) ((start { State.reset with regA := 1 } [(7, 15872)]
          [(15872, 5)] []).setSteals [[⟨15872, 99⟩]]) with
        | .next t => t.mem.word 15872 == 6 && t.ioDeferred == [⟨15872, 99⟩]
        | _ => false)) = true := by
  decide

/-- Within MMF the I/O unit writes the second word before it is read (R454). -/
theorem test_io_within_block :
    (match exec (.mmf 0 2) ((start { State.reset with sr := 0x4000, regA := 0xFFFFFFFF, regB := 20998 } [(0, 15872)]
        [(21000, 1), (21002, 2)] []).setSteals [[], [⟨21000, 77⟩], [⟨21002, 88⟩]]) with
      | .next t => t.mem.word 15874 == 1 && t.mem.word 15876 == 88 && t.mem.word 21000 == 77
      | _ => false) = true := by
  decide

/-- AFD reads its two words in two accesses: the I/O unit may come between (R66, R68). -/
theorem test_io_within_double :
    (match (((start { State.reset with sr := 0x4000 } [] [(21000, 1), (21002, 2)] []).setSteals
        [[], [⟨21000, 77⟩, ⟨21002, 88⟩]]).load64 21000) with
      | .ok (d, t) => d == 0x0000000100000058 && t.mem.word 21000 == 77
      | _ => false) = true := by
  decide

/-- STX tests the immediate option before the halfword option (R174). -/
theorem test_stx_checks_in_order :
    stops State.reset 32 0x1C1B5208 .immediateOnStore && stops State.reset 32 0x1C195208 .halfOnIndex = true := by
  decide

/-! ### Witnesses

For every obligation with hypotheses, concrete states and operands that meet them, with a case for each clause, at
boundaries of the ranges where there are any. -/

/-- Fullword mode: SR4 = 1, XR2 = 21000, XR7 = 15872, some memory, A and B not zero. -/
def full : State :=
  start { State.reset with sr := 0x10, regA := 0x40400000, regB := 7 } [(2, 21000), (7, 15872)]
    [(21000, 0x40400000), (21004, 0x60000000), (16386, 0x60000000), (15872, 0x40400000), (15874, 0x60000000),
      (16382, 0x60000000)] []

/-- The same in halfword mode. -/
def half : State := full.setSr 0x30

/-- What an address rule answers in full: a word, or an immediate. -/
def word (a : Addr) : Ref := ⟨a, false, false⟩

theorem witness_DecodeInvertsEncode : WellFormed (.aduL 6 15 true true 0xFFFF) = true := by
  decide

theorem witness_DecodedIsWellFormed :
    decode [0xA3, 0xFF] = .ok (.adurS 0x7F, []) ∧
      decode [0xA7, 0x80, 0x3E, 0x00, 0x07] = .ok (.adurL 0 false false 0x3E00, [0x07]) :=
  ⟨rfl, rfl⟩

theorem witness_UnassignedEncodings :
    isLong 0x0780 = false ∧ isLong ((0x65200000 : Word32).extractLsb' 16 16) = true ∧
      isLong ((0x643C0000 : Word32).extractLsb' 16 16) = true := by
  decide

theorem witness_StepRunsDecoded :
    (full.withFetchWord 16 0x0700).isPresent 20000 = true ∧ (full.withFetchWord 16 0x0700).halted = false ∧
      decode (halfBytes ((full.withFetchWord 16 0x0700).ioTurn.mem.half 20000)) = .ok (.nop, []) ∧
      isLong ((full.withFetchWord 32 0x34028000).ioTurn.mem.half 20000) = true ∧
      decode (halfBytes ((full.withFetchWord 32 0x34028000).ioTurn.mem.half 20000) ++
        halfBytes ((full.withFetchWord 32 0x34028000).ioTurn.mem.half 20001)) =
          .ok (.laeL 0 0 false true false 0x8000, []) ∧
      (full.withFetchWord 16 0x0700).ioTurn.settled ∧ (full.withFetchWord 32 0x34028000).ioTurn.settled :=
  ⟨rfl, rfl, rfl, rfl, rfl, (fun _ h => by cases h), (fun _ h => by cases h)⟩

/-- A machine whose Fast Scratchpad ends one halfword earlier: 16383 is absent. -/
def gap : State := { full with cfg := Config.oneModule 15872 16382 16384 }

theorem witness_StepStops :
    (full.setPc 15871).ioTurn.isPresent 15871 = false ∧
      isLong (((full.setPc 20001).withFetchWord 32 0x34028000).ioTurn.mem.half 20001) = true ∧ isOdd 20001 = true ∧
      decode (halfBytes ((full.withFetchWord 16 0).ioTurn.mem.half 20000)) = .error .unassignedNonMemory ∧
      decode (halfBytes ((full.withFetchWord 32 0x64000000).ioTurn.mem.half 20000) ++
        halfBytes ((full.withFetchWord 32 0x64000000).ioTurn.mem.half 20001)) = .error .unassignedLongJump ∧
      isLong (((gap.setPc 16382).withFetchWord 32 0x34028000).ioTurn.mem.half 16382) = true ∧
      isOdd 16382 = false ∧ gap.isPresent 16382 = true ∧ gap.isPresent (16382 + 1) = false ∧
      full.ioTurn.irHeld = none ∧ gap.ioTurn.irHeld = none :=
  ⟨rfl, rfl, rfl, rfl, rfl, rfl, rfl, rfl, rfl, rfl, rfl⟩

/-- IR holds NOP for 20001, memory there now holds EMI. -/
def stale : State :=
  { start full [] [] [(20001, 0x0080)] with pc := 20001, ir := 0x38850700, irHeld := some ⟨20001, [0x0700]⟩ }

/-- The same without a store of the CPU. -/
def unstored : State := stale.setHeld (some ⟨20001, []⟩)

/-- Fetch answers the one or the other; where only the I/O unit wrote, the present one. -/
theorem witness_StaleFetchIsOldOrNew :
    (stale.ioTurn.irHeld = some ⟨20001, [0x0700]⟩ ∧ (20001 : Addr) = stale.ioTurn.pc ∧
      isLong (stale.ioTurn.ir.extractLsb' 0 16) = false ∧ isLong 0x0700 = false ∧
      isLong (stale.ioTurn.mem.half stale.ioTurn.pc) = false ∧
      ∃ i s1, stale.fetch = .ok (i, s1)) ∧
    unstored.ioTurn.irHeld = some ⟨20001, []⟩ ∧ unstored.ioTurn.settled ∧ ∃ s1, unstored.fetch = .ok (.emi, s1) := by
  refine ⟨⟨rfl, by decide, by decide, by decide, by decide, ?_⟩, rfl,
    (fun _ h _ => .inl (by cases h; rfl)), _, rfl⟩
  have h : stale.ioTurn.nextHalf =
    ([0x0700, 0x0700, 0x0080].getD ((Config.draw 0).toNat % 3) 0x0080, stale.drawn) := rfl
  unfold State.fetch State.fetchNow
  rw [h]
  have hb : (Config.draw 0).toNat % 3 < 3 := Nat.mod_lt _ (by decide)
  generalize (Config.draw 0).toNat % 3 = b at hb
  match b, hb with
  | 0, _ => exact ⟨.nop, _, rfl⟩
  | 1, _ => exact ⟨.nop, _, rfl⟩
  | 2, _ => exact ⟨.emi, _, rfl⟩

/-- A short store into its own word, the I/O unit writing that word just before it: what IR holds, what the I/O unit
wrote, and what the store left may run (20_memory.md R82). -/
theorem test_own_word_store_and_io :
    (((unstored.setSr 0x4010).setSteals [[⟨20000, 0x07000680⟩]]).store32 20000 0x38850500).map State.runnable =
      .ok [0x0700, 0x0680, 0x0500] := by decide

/-- The I/O unit's write after that store takes none of them away; without a store, its write alone is seen. -/
theorem test_own_word_io_last :
    ((stale.setMem (stale.mem.putHalf 20001 0x0500)).ioWrite ⟨20000, 0x07000680⟩).runnable =
      [0x0700, 0x0700, 0x0500, 0x0680] ∧
    (unstored.ioWrite ⟨20000, 0x07000680⟩).runnable = [0x0680] := by decide

theorem witness_HaltedAndQuietSteps :
    (full.setHalted true).halted = true ∧ full.arrivals = [] ∧ full.srBit 14 = false ∧ full.srBit 15 = false := by
  decide

theorem witness_InvariantKept :
    (full.withFetchWord 16 0x0700).Inv ∧ ∃ t, step (full.withFetchWord 16 0x0700) = .next t :=
  ⟨⟨by decide, by decide, by decide, by decide, fun a h => absurd h (by simp [State.withFetchWord, State.setIr,
    State.setHalted])⟩, _, rfl⟩

/-- The I/O unit is about to write: one word before the next access, one that is refused before the one after it. -/
def busy : State := (full.setSr 0x4010).setSteals [[⟨24576, 9⟩], [⟨21001, 8⟩, ⟨15872, 0x12345678⟩]]

/-- The first and the last protected halfword, one halfword the I/O unit writes, absent ones. -/
theorem witness_ProtectedMemoryUnchanged :
    (∃ t, exec (.staL 0 0 false false 0x5208) busy = .next t ∧ t.mem.half 24577 = 9) ∧
      full.isProtected 24576 = true ∧ (busy.isProtected 24578 = true ∧
        ∀ w ∈ busy.ioWrites, w.addr ≠ 24578 ∧ w.addr + 1 ≠ 24578) ∧
      full.isProtected 32703 = true ∧ full.isPresent 15871 = false ∧ full.isPresent 32768 = false :=
  ⟨⟨_, rfl, rfl⟩, rfl, ⟨rfl, by decide⟩, rfl, rfl, rfl⟩

theorem witness_StatusBitsWrittenOnlyByTheirInstructions :
    (∃ t, exec .shm full = .next t) ∧ 0 ∉ statusWritten .shm ∧ 15 ∉ statusWritten .shm :=
  ⟨⟨_, rfl⟩, by decide, by decide⟩

theorem witness_IndexRegistersWrittenOnlyByTheirInstructions :
    (∃ t, exec (.lxa 15) full = .next t) ∧ ∀ n, indexWritten (.lxa 15) = some n → (63 : Fin 64) ≠ full.xrPlace n :=
  ⟨⟨_, rfl⟩, fun n h => by cases h; decide⟩

/-- The register of the same number in the next group. -/
theorem witness_IndexRegisterFile : (18 : Fin 64) ≠ full.xrPlace 2 ∧ ((full.setSr 2).xrPlace 2).val = 18 := by
  decide

theorem witness_LatchesWrittenOnlyByTheirInstructions :
    (∃ t, exec (.doa false 5 true) full = .next t) ∧
      ∃ t, exec (.staL 0 0 false false 0x5208) busy = .next t ∧ busy.ioWrites = [⟨24576, 9⟩] ++ t.ioWrites :=
  ⟨⟨_, rfl⟩, _, rfl, rfl⟩

theorem witness_WrittenIsReadBack :
    full.mem.wf = true ∧ full.writable32 15872 = true ∧ full.writable32 24574 = true ∧ full.writable32 32766 = true ∧
      full.writable16 16383 = true ∧ full.writable16 32767 = true ∧ full.writable16 32704 = true := by
  decide

/-- Each clause at a boundary of what is present or protected; where the two halves of a word must differ, in a machine
whose Fast Scratchpad ends, or whose protected range starts, between them. -/
theorem witness_AccessesStop :
    isOdd 20001 = true ∧ full.isPresent 15871 = false ∧ full.isPresent 32768 = false ∧
      (full.isPresent 24576 && full.isProtected 24576) = true ∧
      (full.isPresent 32703 && full.isProtected 32703) = true ∧
      (!isOdd 15870 && !full.isPresent 15870) = true ∧
      (!isOdd 16382 && gap.isPresent 16382 && !gap.isProtected 16382 && !gap.isPresent (16382 + 1)) = true ∧
      (!isOdd 32766 && full.isPresent 32766 && !full.isPresent (32766 + 2)) = true ∧
      (!isOdd 16380 && gap.isPresent 16380 && gap.isPresent (16380 + 2) && !gap.isPresent (16380 + 3)) = true ∧
      (let s : State := { full with cfg := { Config.oneModule 15872 16383 16384 with protect := [⟨24577, 32703⟩] } }
       !isOdd 24576 && s.isPresent 24576 && !s.isProtected 24576 && s.isPresent (24576 + 1) &&
         s.isProtected (24576 + 1)) = true ∧ full.cfg = Config.baseline := by
  refine ⟨by decide, by decide, by decide, by decide, by decide, by decide, by decide, by decide, by decide, by decide,
    rfl⟩

/-- Present memory, protected memory and the Fast Scratchpad end where R7, R70 and Table 2-2 say. -/
theorem test_ranges :
    ([15871, 15872, 32767, 32768].map full.isPresent, [24575, 24576, 32703, 32704].map full.isProtected,
      [15871, 15872, 16383, 16384].map full.inFast) =
    ([false, true, true, false], [false, true, true, false], [false, true, true, false]) := by
  decide

/-- Between the read of a fast word and the store into it, the I/O unit writes that word, and asks in vain for an odd
address. -/
theorem witness_AccessesAreTurns :
    (∃ t, busy.operand (word 21000) = .ok (0x40400000, t) ∧ t.mem.word 24576 = 9 ∧ t.ioTurn.mem.word 15872 = 0x12345678) ∧
      full.ioWrites = [] ∧ full.ioDeferred = [] ∧ full.steals = [] :=
  ⟨⟨_, rfl, rfl, rfl⟩, rfl, rfl, rfl⟩

theorem witness_AddressesAndReferences :
    full.cfg.shortPivot = 16384#18 ∧ full.cfg.shortIndexedScale = 1#18 ∧ (2#3 : BitVec 3) ≠ 0 ∧
      full.srBit 6 = false ∧ (full.setSr 0x40).srBit 6 = true := by
  decide

/-- Sixteen pointer words from 21098 on, each naming the next, and at 21130 the last, with M = 1. -/
def chained : State :=
  start full [] (((List.range 16).map fun k =>
    (BitVec.ofNat 18 (21098 + 2 * k), BitVec.ofNat 32 (0x8404526C + 2 * k))) ++ [(21130, 0x84021234)]) []

/-- The `n` words before the last. -/
def leading (n : Nat) : List Word32 := (List.range n).map fun k => BitVec.ofNat 32 (0x8404526C + 2 * (16 - n + k))

/-- A word that names itself (a chain of any length), and one that names absent memory. -/
def looping : State := start full [] [(21000, 0x84045208), (21002, 0x84041000)] []

/-- From 21100 on 16 words in all, from 21098 on 17; the word at 21000 read 16 times; a second word that cannot be
read. -/
theorem witness_IndirectChain :
    (∃ u, chained.pointers true ((21100#16).zeroExtend 18 + 0#18) (leading 15) 0x84021234 u) ∧
      (leading 15).length + 1 ≤ 16 ∧
      (∃ e u, chained.leads true ((21098#16).zeroExtend 18 + 0#18) (leading 16) e u) ∧ (leading 16).length = 16 ∧
      looping.leads true ((21000#16).zeroExtend 18 + 0#18) (List.replicate 16 0x84045208) 21000 looping ∧
      (List.replicate 16 (0x84045208 : Word32)).length = 16 ∧
      looping.leads true ((21002#16).zeroExtend 18 + 0#18) [0x84041000] 4096 looping ∧
      looping.load32 4096 = .error .nonexistentMemory := by
  refine ⟨⟨chained, 21130#18, chained, ?_, rfl, rfl⟩, by decide, ⟨21130#18, chained, ?_⟩, by decide, ?_, by decide,
    ⟨rfl, rfl, rfl, looping, rfl, rfl, rfl⟩, rfl⟩
  · show chained.leads true 21100#18 [0x8404526E, 0x84045270, 0x84045272, 0x84045274, 0x84045276, 0x84045278,
      0x8404527A, 0x8404527C, 0x8404527E, 0x84045280, 0x84045282, 0x84045284, 0x84045286, 0x84045288,
      0x8404528A] 21130#18 chained
    iterate 15 refine ⟨rfl, rfl, rfl, chained, rfl, ?_⟩
    exact ⟨rfl, rfl⟩
  · show chained.leads true 21098#18 [0x8404526C, 0x8404526E, 0x84045270, 0x84045272, 0x84045274, 0x84045276,
      0x84045278, 0x8404527A, 0x8404527C, 0x8404527E, 0x84045280, 0x84045282, 0x84045284, 0x84045286, 0x84045288,
      0x8404528A] 21130#18 chained
    iterate 16 refine ⟨rfl, rfl, rfl, chained, rfl, ?_⟩
    exact ⟨rfl, rfl⟩
  · iterate 16 refine ⟨rfl, rfl, rfl, looping, rfl, ?_⟩
    exact ⟨rfl, rfl⟩

theorem witness_OperandRules :
    full.isPresent 15872 = true ∧ full.isPresent 32767 = true ∧ full.readable32 15872 = true ∧
      full.readable32 32766 = true := by
  decide

/-- Final words with M, with H, with both, direct and at the end of a chain, and inner words with M or H. -/
theorem witness_ForbiddenDesignatorsStop :
    full.longRef true (full.longIndex 0 0) false true false 5 = .ok (⟨5, true, false⟩, full) ∧
      full.longRef true (full.longIndex 0 0) false true true 5 = .ok (⟨5, true, true⟩, full) ∧
      full.longRef false (full.longIndex 0 0) false true true 5 = .ok (⟨5, true, true⟩, full) ∧
      full.longRef true (full.idx1 0) false false true 5 = .ok (⟨5, false, true⟩, full) ∧
      full.longRef true (full.returnIndex 0) false false true 5 = .ok (⟨15877, false, true⟩, full) ∧
      full.longRef true (full.returnIndex 0) false true false 5 = .ok (⟨15877, true, false⟩, full) ∧
      full.longRef false (full.returnIndex 0) false true false 5 = .ok (⟨15877, true, false⟩, full) ∧
      (∃ s, chained.longRef true (chained.longIndex 0 0) true false false 21130 = .ok (⟨0x1234, true, false⟩, s)) ∧
      (∃ w t, (start full [] [(21000, 0x84065300)] []).load32 21000 = .ok (w, t) ∧ w.getLsbD 18 = true ∧
        w.getLsbD 17 = true) ∧
      ∃ w t, full.load32 ((21000#16).zeroExtend 18 + 0) = .ok (w, t) :=
  ⟨rfl, rfl, rfl, rfl, rfl, rfl, rfl, ⟨_, rfl⟩, ⟨_, _, rfl, rfl, rfl⟩, _, _, rfl⟩

/-- Short (a word, a halfword), long (a word, an immediate) and long halfword references, with their operands. -/
theorem witness_LoadsComplete :
    full.shortRef 0 1 = word 16386 ∧ full.operand (word 16386) = .ok (0x60000000, full.ioTurn) ∧
      half.shortRef 0 3 = ⟨16387, false, true⟩ ∧ half.operand ⟨16387, false, true⟩ = .ok (0, half.ioTurn) ∧
      full.longRef true (full.longIndex 2 0) false false false 4 = .ok (word 21004, full) ∧
      full.operand (word 21004) = .ok (0x60000000, full.ioTurn) ∧
      full.longRef true (full.longIndex 0 0) false true false 0x8000 = .ok (⟨0x8000, true, false⟩, full) ∧
      full.operand ⟨0x8000, true, false⟩ = .ok (0xFFFF8000, full) ∧
      full.longRef true (full.longIndex 0 0) false false true 0x5208 = .ok (⟨21000, false, true⟩, full) ∧
      full.operand ⟨21000, false, true⟩ = .ok (0x40400000, full.ioTurn) :=
  ⟨rfl, rfl, rfl, rfl, rfl, rfl, rfl, rfl, rfl, rfl⟩

theorem witness_IndexAndAddressLoadsComplete :
    full.indexOperand (full.shortObjectRef 1) = .ok (0, full.ioTurn) ∧
      full.longRef true (full.idx1 2) false false false 0 = .ok (word 21000, full) ∧
      full.indexOperand (word 21000) = .ok (0, full.ioTurn) ∧
      full.longRef true (full.idx1 2) false true false 0xFFFF = .ok (⟨86535, true, false⟩, full) ∧
      full.indexOperand ⟨86535, true, false⟩ = .ok (86535, full) ∧
      full.longRef false (full.longIndex 2 2) false false true 0 = .ok (⟨42000, false, true⟩, full) :=
  ⟨rfl, rfl, rfl, rfl, rfl, rfl⟩

theorem witness_StoresComplete :
    full.mem.wf = true ∧ (word 21000).imm = false ∧ full.writable (word 21000) = true ∧
      full.shortRef 2 0 = word 21000 ∧ full.longRef true (full.longIndex 2 0) false false false 0 = .ok (word 21000, full) ∧
      half.mem.wf = true ∧ half.writable ⟨16389, false, true⟩ = true ∧ half.shortRef 0 5 = ⟨16389, false, true⟩ ∧
      full.writable ⟨32767, false, true⟩ = true ∧
      full.longRef true (full.longIndex 0 0) false false true 32767 = .ok (⟨32767, false, true⟩, full) ∧
      full.writable16 32767 = true ∧
      full.longRef false (full.longIndex 0 0) false false false 32767 = .ok (word 32767, full) ∧
      full.writable16 16386 = true ∧ full.shortRef 0 1 = word 16386 :=
  ⟨rfl, rfl, rfl, rfl, rfl, rfl, rfl, rfl, rfl, rfl, rfl, rfl, rfl, rfl⟩

theorem witness_SpecialStoresComplete :
    full.mem.wf = true ∧ full.writable32 16386 = true ∧ full.shortObjectRef 1 = ⟨16386, false, false⟩ ∧
      full.writable32 21000 = true ∧ full.longRef true (full.idx1 2) false false false 0 = .ok (word 21000, full) ∧
      full.longRef false (full.longIndex 2 0) false false true 0 = .ok (⟨21000, false, true⟩, full) :=
  ⟨rfl, rfl, rfl, rfl, rfl, rfl⟩

theorem witness_StatusAndMaskLoadsComplete :
    full.longRef false (full.longIndex 2 0) false false true 0 = .ok (⟨21000, false, true⟩, full) ∧
      full.readable32 21000 = true ∧
      full.longRef false (full.longIndex 0 0) false true true 0xFFFF = .ok (⟨0xFFFF, true, true⟩, full) :=
  ⟨rfl, rfl, rfl⟩

/-- Nothing asked for, and a word asked for elsewhere. -/
theorem witness_StatusAndMaskRoundTrip :
    full.mem.wf = true ∧ (∀ w ∈ full.ioWrites, w.addr ≠ (0x5208 : BitVec 16).zeroExtend 18) ∧
      (∀ w ∈ busy.ioWrites, w.addr ≠ (0x5208 : BitVec 16).zeroExtend 18) ∧
      (∃ t, exec (.stsL 0 0 false false 0x5208) full = .next t) ∧
      (∃ t, exec (.stsL 0 0 false false 0x5208) busy = .next t) ∧
      ∃ t, exec (.stiL 0 0 false false 0x5208) full = .next t :=
  ⟨rfl, by decide, by decide, ⟨_, rfl⟩, ⟨_, rfl⟩, _, rfl⟩

theorem witness_AddSubtract :
    full.shortRef 2 0 = word 21000 ∧ full.operand (word 21000) = .ok (0x40400000, full.ioTurn) ∧
      full.longRef true (full.longIndex 2 0) false false false 4 = .ok (word 21004, full) ∧
      full.operand (word 21004) = .ok (0x60000000, full.ioTurn) ∧
      full.longRef true (full.longIndex 0 0) false true true 0x8000 = .ok (⟨0x8000, true, true⟩, full) ∧
      full.operand ⟨0x8000, true, true⟩ = .ok (0x80000000, full) :=
  ⟨rfl, rfl, rfl, rfl, rfl, rfl⟩

/-- The first and the last word of the Fast Scratchpad. -/
theorem witness_ReturnVariantsStore :
    full.mem.wf = true ∧ full.shortReturnRef 0 = word 15872 ∧ full.operand (word 15872) = .ok (0x40400000, full.ioTurn) ∧
      full.inFast 15872 = true ∧ full.writable (word 15872) = true ∧
      full.longRef true (full.returnIndex 0) false false false 510 = .ok (word 16382, full) ∧
      full.operand (word 16382) = .ok (0x60000000, full.ioTurn) ∧ full.inFast 16382 = true ∧ full.writable (word 16382) = true ∧
      full.longRef true (full.returnIndex 0) false false true 511 = .ok (⟨16383, false, true⟩, full) ∧
      full.operand ⟨16383, false, true⟩ = .ok (0, full.ioTurn) ∧ full.inFast 16383 = true ∧
      full.writable ⟨16383, false, true⟩ = true :=
  ⟨rfl, rfl, rfl, rfl, rfl, rfl, rfl, rfl, rfl, rfl, rfl, rfl, rfl⟩

/-- The first word after the Fast Scratchpad. -/
theorem witness_ReturnVariantsOutsideFast :
    (full.setSr 0x50).shortReturnRef 0 = word 16384 ∧ full.operand (word 16384) = .ok (0, full.ioTurn) ∧
      full.inFast 16384 = false ∧
      full.longRef true (full.returnIndex 0) false false false 512 = .ok (word 16384, full) ∧
      full.longRef true (full.returnIndex 0) false false true 512 = .ok (⟨16384, false, true⟩, full) ∧
      full.operand ⟨16384, false, true⟩ = .ok (0, full.ioTurn) :=
  ⟨rfl, rfl, rfl, rfl, rfl, rfl⟩

/-- Short, long and halfword forms. -/
theorem witness_DoublePrecisionPair :
    (∃ t, exec (.adlS 2 0) full = .next t ∧ ∃ hi, t.readsOperand (.aduL 2 0 false false 4) hi ∧
        ∃ u, exec (.aduL 2 0 false false 4) t = .next u) ∧
      full.readsOperand (.adlS 2 0) 0x40400000 ∧ full.readsOperand (.sblhL 2 0 false false 0) 0x40400000 ∧
      (isAdl (.adlS 2 0) && isAdu (.aduL 2 0 false false 4) && isSbl (.sblhL 2 0 false false 0) &&
        isSbu (.sbuS 2 4)) = true ∧
      ∃ t, exec (.sblhL 2 0 false false 0) full = .next t ∧ ∃ hi, t.readsOperand (.sbuS 2 4) hi ∧
        ∃ u, exec (.sbuS 2 4) t = .next u :=
  ⟨⟨_, rfl, _, ⟨_, _, _, rfl, rfl⟩, _, rfl⟩, ⟨_, rfl⟩, ⟨_, _, _, rfl, rfl⟩, rfl, _, rfl, _, ⟨_, rfl⟩, _, rfl⟩

theorem witness_MultiplyProducts :
    full.shortRef 2 4 = word 21004 ∧ full.operand (word 21004) = .ok (0x60000000, full.ioTurn) ∧
      full.longRef true (full.longIndex 2 0) false false false 4 = .ok (word 21004, full) ∧
      half.shortRef 0 2 = ⟨16386, false, true⟩ ∧ half.operand ⟨16386, false, true⟩ = .ok (0x60000000, half.ioTurn) ∧
      full.longRef true (full.longIndex 2 0) false false true 4 = .ok (⟨21004, false, true⟩, full) ∧
      full.operand ⟨21004, false, true⟩ = .ok (0x60000000, full.ioTurn) :=
  ⟨rfl, rfl, rfl, rfl, rfl, rfl, rfl⟩

theorem witness_MultiplyReturns :
    full.mem.wf = true ∧ full.shortReturnRef 2 = word 15874 ∧ full.operand (word 15874) = .ok (0x60000000, full.ioTurn) ∧
      full.returnable (word 15874) = true ∧
      full.longRef true (full.returnIndex 0) false false false 510 = .ok (word 16382, full) ∧
      full.returnable (word 16382) = true ∧
      full.longRef true (full.returnIndex 0) false false false 514 = .ok (word 16386, full) ∧
      full.operand (word 16386) = .ok (0x60000000, full.ioTurn) ∧ full.returnable (word 16386) = true ∧
      half.shortReturnRef 2 = ⟨15874, false, true⟩ ∧ half.operand ⟨15874, false, true⟩ = .ok (0x60000000, half.ioTurn) ∧
      half.returnable ⟨15874, false, true⟩ = true ∧
      full.longRef true (full.returnIndex 0) false false true 510 = .ok (⟨16382, false, true⟩, full) ∧
      full.operand ⟨16382, false, true⟩ = .ok (0x60000000, full.ioTurn) ∧ full.returnable ⟨16382, false, true⟩ = true :=
  ⟨rfl, rfl, rfl, rfl, rfl, rfl, rfl, rfl, rfl, rfl, rfl, rfl, rfl, rfl, rfl⟩

/-- The references of `witness_MultiplyProducts`, whose operands also meet the magnitude preconditions. -/
theorem witness_DivideQuotients :
    full.operand (full.shortRef 2 4) = .ok (0x60000000, full.ioTurn) ∧
      full.regA.toInt.natAbs < (0x60000000 : Word32).toInt.natAbs ∧ full.regA.extractLsb' 0 16 = 0#16 ∧
      (full.regA.extractLsb' 16 16).toInt.natAbs < ((0x60000000 : Word32).extractLsb' 16 16).toInt.natAbs ∧
      half.operand (half.shortRef 0 2) = .ok (0x60000000, half.ioTurn) ∧ half.regA = full.regA :=
  ⟨rfl, by decide, rfl, by decide, rfl, rfl⟩

/-- The references of `witness_MultiplyReturns`, whose operands also meet the magnitude preconditions. -/
theorem witness_DivideReturns :
    full.operand (full.shortReturnRef 2) = .ok (0x60000000, full.ioTurn) ∧ full.returnable (full.shortReturnRef 2) = true ∧
      full.regA.toInt.natAbs < (0x60000000 : Word32).toInt.natAbs ∧
      half.operand (half.shortReturnRef 2) = .ok (0x60000000, half.ioTurn) ∧ half.returnable (half.shortReturnRef 2) = true :=
  ⟨rfl, rfl, by decide, rfl, rfl⟩

/-- 0x40400000 is one half. -/
theorem fval32_half : fval32 0x40400000 = 1 / 2 := by
  have h1 : mant32 0x40400000 = 4194304 := by decide
  have h2 : (exp32 0x40400000).toNat = 128 := by decide
  rw [fval32, h1, h2]
  norm_num

/-- 0x40C00000 is one. -/
theorem fval32_one : fval32 0x40C00000 = 1 := by
  have h1 : mant32 0x40C00000 = 4194304 := by decide
  have h2 : (exp32 0x40C00000).toNat = 129 := by decide
  rw [fval32, h1, h2]
  norm_num

/-- A double precision number with the upper half 0x40400000 and seven in its last bits is one half. -/
theorem fval64_half : fval64 0x4040000000000007 = 1 / 2 := by
  have h1 : mant64 0x4040000000000007 = 70368744177664 := by decide
  have h2 : (exp64 0x4040000000000007).toNat = 128 := by decide
  rw [fval64, h1, h2]
  norm_num

/-- One quarter, in double precision. -/
theorem fval64_quarter : fval64 0x3FC0000000000000 = 1 / 4 := by
  have h1 : mant64 0x3FC0000000000000 = 70368744177664 := by decide
  have h2 : (exp64 0x3FC0000000000000).toNat = 127 := by decide
  rw [fval64, h1, h2]
  norm_num

/-- One half and one half: the sum is in range, the difference is zero; and the double word that ends with the core
memory. -/
theorem witness_FloatAddSubtract :
    full.shortRef 2 0 = word 21000 ∧ full.readable32 21000 = true ∧ full.readable32 (21000 + 2) = true ∧
      full.longRef false (full.longIndex 2 0) false false false 0 = .ok (word 21000, full) ∧
      full.readable32 32764 = true ∧ full.readable32 (32764 + 2) = true ∧
      inRange32 (fval32 full.regA + fval32 (full.ioTurn.mem.word 21000)) ∧
      fval32 full.regA - fval32 (full.ioTurn.mem.word 21000) = 0 ∧ inRange64 (fval64 0x4040000000000007) := by
  have ha : full.regA = 0x40400000 := rfl
  have hm : full.ioTurn.mem.word 21000 = 0x40400000 := rfl
  refine ⟨rfl, rfl, rfl, rfl, rfl, rfl, ⟨0x40400000, 0x40C00000, rfl, rfl, ?_, ?_, ?_⟩, ?_,
    ⟨0x4040000000000007, 0x4040000000000007, rfl, rfl, le_refl _, le_refl _, ?_⟩⟩ <;>
    simp only [ha, hm, fval32_half, fval32_one, fval64_half] <;> norm_num

theorem witness_FloatMultiply :
    full.shortRef 2 0 = word 21000 ∧ full.readable32 21000 = true ∧
      full.longRef false (full.longIndex 2 0) false false true 0 = .ok (⟨21000, false, true⟩, full) ∧
      inRange64 (fvalNormal32 full.regA * fvalNormal32 (full.ioTurn.mem.word 21000)) := by
  have ha : full.regA = 0x40400000 := rfl
  have hm : full.ioTurn.mem.word 21000 = 0x40400000 := rfl
  have hn : fvalNormal32 0x40400000 = 1 / 2 := by rw [fvalNormal32, if_pos (by decide), fval32_half]
  refine ⟨rfl, rfl, rfl, 0x3FC0000000000000, 0x4040000000000007, rfl, rfl, ?_, ?_, ?_⟩ <;>
    simp only [ha, hm, hn, fval64_half, fval64_quarter] <;> norm_num

theorem witness_FloatDivide :
    full.shortRef 2 0 = word 21000 ∧ full.readable32 21000 = true ∧ normalized32 (full.ioTurn.mem.word 21000) = true ∧
      full.longRef false (full.longIndex 2 0) false false true 0 = .ok (⟨21000, false, true⟩, full) ∧
      inRange32 ((if normalized32 full.regA then fval64 (full.regA ++ full.regB) else 0) /
        fval32 (full.ioTurn.mem.word 21000)) := by
  have hm : full.ioTurn.mem.word 21000 = 0x40400000 := rfl
  have hn : (if normalized32 full.regA then fval64 (full.regA ++ full.regB) else 0) = 1 / 2 := by
    rw [if_pos (by decide)]
    exact fval64_half
  refine ⟨rfl, rfl, rfl, rfl, 0x40400000, 0x40C00000, rfl, rfl, ?_, ?_, ?_⟩ <;>
    simp only [hm, hn, fval32_half, fval32_one] <;> norm_num

/-- The first and the last word of the Fast Scratchpad, and the first after it. -/
theorem witness_FloatReturns :
    full.mem.wf = true ∧ full.shortReturnRef 0 = word 15872 ∧ full.readable32 15872 = true ∧
      full.returnable (word 15872) = true ∧ full.readable32 (15872 + 2) = true ∧
      normalized32 (full.mem.word 15872) = true ∧
      full.longRef false (full.returnIndex 0) false false false 510 = .ok (word 16382, full) ∧
      full.readable32 16382 = true ∧ full.returnable (word 16382) = true ∧ full.readable32 (16382 + 2) = true ∧
      full.longRef false (full.returnIndex 0) false false true 512 = .ok (⟨16384, false, true⟩, full) ∧
      full.readable32 16384 = true ∧ full.returnable (word 16384) = true :=
  ⟨rfl, rfl, rfl, rfl, rfl, rfl, rfl, rfl, rfl, rfl, rfl, rfl, rfl⟩

theorem witness_LogicalComplete :
    full.shortRef 2 0 = word 21000 ∧ full.operand (word 21000) = .ok (0x40400000, full.ioTurn) ∧
      full.longRef true (full.longIndex 6 0) false true false 0xFFFF = .ok (⟨0xFFFF, true, false⟩, full) ∧
      full.operand ⟨0xFFFF, true, false⟩ = .ok (0xFFFFFFFF, full) ∧ (6#3 : BitVec 3) ≠ 7 :=
  ⟨rfl, rfl, rfl, rfl, by decide⟩

theorem witness_LogicalReturns :
    full.mem.wf = true ∧ full.shortReturnRef 0 = word 15872 ∧ full.operand (word 15872) = .ok (0x40400000, full.ioTurn) ∧
      full.inFast 15872 = true ∧ full.writable (word 15872) = true ∧
      full.longRef true (full.returnIndex 0) false false false 510 = .ok (word 16382, full) ∧
      full.operand (word 16382) = .ok (0x60000000, full.ioTurn) ∧ full.inFast 16382 = true ∧ full.writable (word 16382) = true :=
  ⟨rfl, rfl, rfl, rfl, rfl, rfl, rfl, rfl, rfl⟩

/-- Another address (one short of the return locations), and the return locations of levels 0 and 15. -/
theorem witness_ReturnAddressCompletes :
    full.shortRef 2 0 = word 21000 ∧ full.readable32 21000 = true ∧
      full.longRef true (full.longIndex 0 0) false false false 32734 = .ok (word 32734, full) ∧
      full.readable32 32734 = true ∧ (∀ l, full.cfg.returnAt.get l ≠ 32734) ∧
      full.longRef true (full.longIndex 0 0) false false false 32736 = .ok (word 32736, full) ∧
      full.readable32 32736 = true ∧ full.cfg.returnAt.get 0 = 32736 ∧
      full.longRef true (full.longIndex 0 0) false false false 32766 = .ok (word 32766, full) ∧
      full.readable32 32766 = true ∧ full.cfg.returnAt.get 15 = 32766 ∧
      (start full [(2, 32736)] [] []).shortRef 2 0 = word 32736 :=
  ⟨rfl, rfl, rfl, rfl, by decide, rfl, rfl, rfl, rfl, rfl, rfl, rfl⟩

theorem witness_SkipsComplete :
    full.shortRef 2 0 = word 21000 ∧ full.operand (word 21000) = .ok (0x40400000, full.ioTurn) ∧
      full.longRef true (full.longIndex 2 0) false false false 0 = .ok (word 21000, full) ∧
      full.indexOperand (full.shortObjectRef 1) = .ok (0, full.ioTurn) ∧
      full.longRef false (full.idx1 2) false true false 0 = .ok (⟨21000, true, false⟩, full) ∧
      full.indexOperand ⟨21000, true, false⟩ = .ok (21000, full) :=
  ⟨rfl, rfl, rfl, rfl, rfl, rfl⟩

theorem witness_IndexModifiesComplete :
    full.indexOperand (full.shortObjectRef 1) = .ok (0, full.ioTurn) ∧
      full.longRef false (full.idx1 2) false false false 0 = .ok (word 21000, full) ∧
      full.indexOperand (word 21000) = .ok (0, full.ioTurn) :=
  ⟨rfl, rfl, rfl⟩

/-- An odd address; a pointer at the head (M = 0, M = 1); a pointer that names itself. -/
theorem witness_SubroutineJumpCompletes :
    isOdd ((21001#18 : Addr) + 0) = true ∧ isOdd ((21130#18 : Addr) + 0) = false ∧
      (∃ u, (start full [] [(20480, 0x84005300)] []).pointers false 20480 [] 0x84005300 u) ∧
      (start full [] [(20480, 0x84005300)] []).mem.wf = true ∧
      (start full [] [(20480, 0x84005300)] []).writable32
        ((start full [] [(20480, 0x84005300)] []).pointerAddr 0x84005300) = true ∧
      (0x84005300 : Word32).getLsbD 17 = false ∧ (∃ u, chained.pointers false 21130 [] 0x84021234 u) ∧
      (0x84021234 : Word32).getLsbD 17 = true ∧ isOdd ((21000#18 : Addr) + 0) = false ∧
      looping.leads false (21000#18 + 0) (List.replicate 16 0x84045208) 21000 looping ∧
      (List.replicate 16 (0x84045208 : Word32)).length = 16 := by
  refine ⟨by decide, by decide, ⟨_, _, _, ⟨rfl, rfl⟩, rfl, rfl⟩, rfl, rfl, rfl, ⟨_, _, _, ⟨rfl, rfl⟩, rfl, rfl⟩, rfl,
    by decide, ?_, by decide⟩
  iterate 16 refine ⟨rfl, rfl, rfl, looping, rfl, ?_⟩
  exact ⟨rfl, rfl⟩

theorem witness_FlagsHaltAndIndexFromA :
    (full.setLines 0 true).testSignal = true ∧ full.testSignal = false ∧ (1#4 : BitVec 4) ≠ 0 ∧
      (15#4 : BitVec 4) ≠ 0 := by
  decide

theorem witness_ConversionsComplete :
    normalized64 (full.regA ++ full.regB) = true ∧ full.cfg.cfxMin < |fval64 (full.regA ++ full.regB)| ∧
      |fval64 (full.regA ++ full.regB)| < 2 ^ 31 := by
  have h : fval64 (full.regA ++ full.regB) = 1 / 2 := fval64_half
  have hc : full.cfg.cfxMin = 1 / 2 ^ 56 := by
    rw [show full.cfg.cfxMin = mkRat 1 (2 ^ 56) from rfl, Rat.mkRat_eq_div]
    norm_num
  refine ⟨rfl, ?_, ?_⟩ <;> rw [h] <;> norm_num [hc]

theorem witness_InputOutputCompletes :
    full.longRef false 0 false false false 0x5208 = .ok (word 21000, full) ∧ full.readable32 21000 = true ∧
      full.mem.wf = true ∧ full.writable32 21000 = true ∧
      ∃ s, chained.longRef false 0 true false false 21130 = .ok (⟨0x1234, true, false⟩, s) :=
  ⟨rfl, rfl, rfl, rfl, _, rfl⟩

/-- A transfer of one word to and from the last fast word and the last core word, and a transfer of none. -/
theorem witness_BlockTransfersComplete :
    let s : State := start { full with regB := 32764 } [(0, 16380)] [] []
    s.mem.wf = true ∧ s.ioWrites = [] ∧ isOdd (s.regB.extractLsb' 0 18) = false ∧ isOdd (s.xr 0) = false ∧
      (s.regB.extractLsb' 0 18).toNat + 2 * (0 + (1#7).toNat) + 1 < 2 ^ 18 ∧
      (s.xr 0).toNat + 2 * (0 + (1#7).toNat) + 1 < 2 ^ 18 ∧
      (s.xr 0).toNat + 2 * (0 + (1#7).toNat) < (s.regB.extractLsb' 0 18).toNat + 2 ∧
      (∀ k, k < 0 + (1#7).toNat → s.inFast (s.xr 0 + BitVec.ofNat 18 (2 * (k + 1))) = true ∧
        s.readable32 (s.xr 0 + BitVec.ofNat 18 (2 * (k + 1))) = true ∧
        s.readable32 (s.regB.extractLsb' 0 18 + BitVec.ofNat 18 (2 * (k + 1))) = true ∧
        s.writable32 (s.xr 0 + BitVec.ofNat 18 (2 * (k + 1))) = true ∧
        s.writable32 (s.regB.extractLsb' 0 18 + BitVec.ofNat 18 (2 * (k + 1))) = true) ∧
      0 + (0#7).toNat = 0 := by
  decide

/-- A transfer of one word that the I/O unit comes into the middle of; odd addresses, one word past the fast range, a
protected core word; the fast range one word above the core range. -/
theorem witness_BlockTransfersWordByWord :
    (∃ t, (start { busy with regB := 20998 } [(0, 15872)] [] []).moves true 20998 15872 1 t ∧
        t.mem.word 24576 = 9 ∧ t.mem.word 15872 = 0x12345678 ∧ t.mem.word 15874 = 0x40400000) ∧
      (∃ t, full.moves true 20998 16382 0 t ∧ t.inFast 16384 = false) ∧
      (full.inFast 15874 && isOdd 21001 && isOdd 15875 && full.readable32 21000) = true ∧
      (∃ w v, full.load32 15872 = .ok (w, v) ∧ v.store32 24576 (w &&& full.regA) = .error .protectedWrite) ∧
      full.load32 15870 = .error .nonexistentMemory ∧
      (15874 : Addr) = 15872 + 2 ∧ full.readable32 (15872 + 2) = true ∧ full.inFast 15876 = true ∧
      full.writable32 15876 = true :=
  ⟨⟨_, ⟨rfl, _, _, _, rfl, rfl, rfl⟩, rfl, rfl, rfl⟩, ⟨_, rfl, rfl⟩, rfl, ⟨_, _, rfl, rfl⟩, rfl, rfl, rfl, rfl, rfl⟩

/-- A machine whose level 3 has its transfer location in absent memory, level 4 an odd and level 5 an absent return
location, and level 6 locations that are not those of Table 2-3. -/
def moved : State :=
  { full with cfg := { full.cfg with
    transferAt := full.cfg.transferAt.set 3 32768 |>.set 6 16384,
    returnAt := full.cfg.returnAt.set 4 32745 |>.set 5 32768 |>.set 6 16386 } }

/-- A machine in which only the second halfword of TRANSFER(3) and of RETURN(5) is absent. -/
def halves : State :=
  { gap with cfg := { gap.cfg with
    transferAt := gap.cfg.transferAt.set 3 16382, returnAt := gap.cfg.returnAt.set 5 16382 } }

theorem witness_InterruptEntry :
    full.mem.wf = true ∧ full.cfg = Config.baseline ∧
      (∀ l ∈ [(0 : Fin 16), 15], full.isPresent (full.cfg.transferAt.get l) = true ∧
        full.isPresent (full.cfg.transferAt.get l + 1) = true ∧ full.readable32 (full.cfg.returnAt.get l) = true) ∧
      moved.mem.wf = true ∧ moved.isPresent (moved.cfg.transferAt.get 3) = false ∧
      isOdd (moved.cfg.returnAt.get 4) = true ∧ isOdd (moved.cfg.returnAt.get 5) = false ∧
      moved.isPresent (moved.cfg.returnAt.get 5) = false ∧ halves.mem.wf = true ∧
      halves.isPresent (halves.cfg.transferAt.get 3) = true ∧
      halves.isPresent (halves.cfg.transferAt.get 3 + 1) = false ∧
      halves.isPresent (halves.cfg.transferAt.get 5) = true ∧
      halves.isPresent (halves.cfg.transferAt.get 5 + 1) = true ∧ isOdd (halves.cfg.returnAt.get 5) = false ∧
      halves.isPresent (halves.cfg.returnAt.get 5) = true ∧
      halves.isPresent (halves.cfg.returnAt.get 5 + 1) = false := by
  refine ⟨rfl, rfl, by decide, rfl, rfl, rfl, rfl, rfl, rfl, rfl, rfl, rfl, rfl, rfl, rfl, rfl⟩

/-- Entry and return at locations that are not those of Table 2-3 (00_scope.md R7). -/
theorem test_moved_locations :
    ((moved.setPending 0x40).enterInterrupt 6).map (fun t => (t.pc, t.inService, t.pending)) = .ok (16384, 0x40, 0) ∧
      moved.returnLoc 6 = 16386 ∧
      ((moved.setInService 0x41).completeLevel 16386).inService = 1 ∧
      ((moved.setInService 0x41).completeLevel 32748).inService = 0x41 := by
  decide

/-- Levels 5 and 9 requested: 9 is the highest, latched or just arriving. With nothing requested none is eligible. -/
theorem witness_RecognitionTakesTheHighest :
    let s : State := { full with sr := 0x8000, mr := 0x220, pending := 0x220, holdoff := 1 }
    let e : State := { full with sr := 0x8000, mr := 0x220, arrivals := [⟨0xFFFF, [], none, none, false⟩] }.environment
    s.holdoff ≤ 1 ∧ s.srBit 15 = true ∧ s.eligible 9 ∧ (∀ k, 9 < k → ¬s.eligible k) ∧
      2 ≤ (s.setHoldoff 2).holdoff ∧ full.srBit 15 = false ∧ (∀ k, ¬full.eligible k) ∧
      e.holdoff ≤ 1 ∧ e.srBit 15 = true ∧ e.eligible 9 ∧ (∀ k, 9 < k → ¬e.eligible k) ∧
      2 ≤ (full.setHoldoff 2).environment.holdoff ∧ full.environment.srBit 15 = false := by
  intro s e
  refine ⟨by decide, by decide, ⟨by decide, by decide, by decide, fun k _ _ => ?_⟩, ?_, by decide, by decide, ?_,
    by decide, by decide, ⟨by decide, by decide, by decide, fun k _ _ => ?_⟩, ?_, by decide, by decide⟩
  · exact BitVec.getLsbD_zero
  · rintro k hk ⟨h, hp, -⟩
    interval_cases k <;> exact absurd hp (by decide)
  · rintro k ⟨h, hp, -⟩
    exact absurd hp (by rw [show full.pending.getLsbD k = (0#16).getLsbD k from rfl]; simp)
  · exact BitVec.getLsbD_zero
  · rintro k hk ⟨h, hp, -⟩
    interval_cases k <;> exact absurd hp (by decide)

theorem witness_EntryThenReturn :
    full.mem.wf = true ∧ full.cfg.returnAt.get 0 = (32736#16).zeroExtend 18 ∧
      full.cfg.returnAt.get 15 = (32766#16).zeroExtend 18 ∧
      (∀ w ∈ busy.ioWrites, w.addr ≠ full.cfg.returnAt.get 0) ∧
      (∀ w ∈ busy.ioWrites, w.addr ≠ full.cfg.returnAt.get 15) ∧ (∃ t, busy.enterInterrupt 0 = .ok t) ∧
      ∃ t, busy.enterInterrupt 15 = .ok t :=
  ⟨rfl, rfl, rfl, by decide, by decide, ⟨_, rfl⟩, _, rfl⟩

/-- SR14 = 0 and SR14 = 1, with and without an entry of arrivals; a word that may be written though it is protected. -/
theorem witness_MemoryInterruptGate :
    full.srBit 14 = false ∧ (full.setArrivals [⟨0, [⟨21000, 5⟩], none, none, false⟩]).arrivals =
        ⟨0, [⟨21000, 5⟩], none, none, false⟩ :: [] ∧ full.arrivals = [] ∧
      busy.srBit 14 = true ∧ busy.arrivals = [] ∧ full.readable32 24576 = true ∧ full.mem.wf = true := by
  decide
end Sys2Proof.Tests
end

section
/-! PROOFS. Where an access stops, and by which name (20_memory.md R64, R66, R67, R73, R75; 00_scope.md R7). -/

namespace Sys2Proof.Machine

/-! ### Presence and protection do not depend on the I/O unit's turn -/

@[simp] theorem State.ioTurn_isPresent (s : State) (a : Addr) : s.ioTurn.isPresent a = s.isPresent a := by
  rw [State.isPresent, State.ioTurn_cfg, State.isPresent]

@[simp] theorem State.storeTurn_isPresent (s : State) (half : Bool) (a b : Addr) :
    (s.storeTurn half a).isPresent b = s.isPresent b := by
  rw [State.isPresent, State.storeTurn_cfg, State.isPresent]

@[simp] theorem State.storeTurn_isProtected (s : State) (half : Bool) (a b : Addr) :
    (s.storeTurn half a).isProtected b = s.isProtected b := by
  rw [State.isProtected, State.storeTurn_cfg, State.isProtected]

/-! ### Reads that stop -/

theorem bind_error {α β : Type} {x : Except Fault α} {e : Fault} (f : α → Except Fault β) (h : x = .error e) :
    (x >>= f) = .error e := by
  subst h
  rfl

theorem bind_of_ok {α β : Type} {x : Except Fault α} {a : α} (f : α → Except Fault β) (h : x = .ok a) :
    (x >>= f) = f a := by
  subst h
  rfl

theorem State.read16_absent {s : State} {a : Addr} (h : s.isPresent a = false) :
    s.read16 a = .error .nonexistentMemory := by
  simp [State.read16, h]

theorem State.load16_absent {s : State} {a : Addr} (h : s.isPresent a = false) :
    s.load16 a = .error .nonexistentMemory :=
  bind_error _ (State.read16_absent (by simpa using h))

theorem State.load32_odd {s : State} {a : Addr} (h : isOdd a = true) : s.load32 a = .error .misaligned :=
  bind_error _ (if_pos h)

theorem State.load32_absent {s : State} {a : Addr} (ho : isOdd a = false)
    (h : s.isPresent a = false ∨ s.isPresent (a + 1) = false) : s.load32 a = .error .nonexistentMemory := by
  refine bind_error _ ?_
  rw [State.read32, if_neg (by simp [ho])]
  cases hp : s.isPresent a with
  | false => exact bind_error _ (State.read16_absent (by simpa using hp))
  | true =>
    have hlow : s.isPresent (a + 1) = false := by simpa [hp] using h
    rw [bind_of_ok _ (State.read16_ok.2 ⟨by simpa using hp, rfl⟩)]
    exact bind_error _ (State.read16_absent (by simpa using hlow))

/-- A double word read stops where its first fullword does. -/
theorem State.load64_error_first {s : State} {a : Addr} {e : Fault} (h : s.load32 a = .error e) :
    s.load64 a = .error e :=
  bind_error _ h

theorem isOdd_add_two (a : Addr) : isOdd (a + 2) = isOdd a := by
  simp only [isOdd, BitVec.getLsbD, Nat.testBit_zero, BitVec.toNat_add, show (2 : Addr).toNat = 2 from rfl]
  congr 2
  omega

/-- A double word read stops where its second fullword does, if it has not stopped at the first. -/
theorem State.load64_absent_second {s : State} {a : Addr} (ho : isOdd a = false)
    (h : s.isPresent (a + 2) = false ∨ s.isPresent (a + 3) = false) : s.load64 a = .error .nonexistentMemory := by
  cases hr : s.readable32 a with
  | true =>
    rw [State.load64, bind_of_ok _ (State.load32_of_readable hr)]
    refine bind_error _ (State.load32_absent (by rw [isOdd_add_two, ho]) ?_)
    simpa [BitVec.add_assoc] using h
  | false =>
    refine State.load64_error_first (State.load32_absent ho ?_)
    simp only [State.readable32, ho, Bool.not_false, Bool.true_and, Bool.and_eq_false_iff] at hr
    exact hr

/-! ### Stores that stop -/

theorem State.write16_absent {s : State} {a : Addr} {v : Half} (h : s.isPresent a = false) :
    s.write16 a v = .error .nonexistentMemory := by
  simp [State.write16, h]

theorem State.write16_protected {s : State} {a : Addr} {v : Half} (hp : s.isPresent a = true)
    (h : s.isProtected a = true) : s.write16 a v = .error .protectedWrite := by
  simp [State.write16, hp, h]

/-- A fullword write stops where that of its left half does. -/
theorem State.write32_error_high {s : State} {a : Addr} {v : Word32} {e : Fault} (ho : isOdd a = false)
    (h : s.write16 a (v.extractLsb' 16 16) = .error e) : s.write32 a v = .error e := by
  rw [State.write32, if_neg (by simp [ho])]
  exact bind_error _ h

/-- A fullword write whose left half may be written stops where that of its right half does. -/
theorem State.write32_error_low {s : State} {a : Addr} {v : Word32} {e : Fault} (ho : isOdd a = false)
    (hw : s.writable16 a = true)
    (h : (s.setMem (s.mem.putHalf a (v.extractLsb' 16 16))).write16 (a + 1) (v.extractLsb' 0 16) = .error e) :
    s.write32 a v = .error e := by
  rw [State.write32, if_neg (by simp [ho]), State.write16_of_writable _ hw]
  exact h

/-! ### The ranges of a configuration -/

/-- A list of ranges, both ends of each included. -/
theorem inRanges_iff (rs : List AddrRange) (a : Addr) :
    inRanges rs a = true ↔ ∃ r ∈ rs, r.lo ≤ a.toNat ∧ a.toNat ≤ r.hi := by
  simp [inRanges]

theorem State.inFast_iff (s : State) (a : Addr) :
    s.inFast a = true ↔ s.cfg.fastLo ≤ a.toNat ∧ a.toNat ≤ s.cfg.fastHi := by
  simp [State.inFast]

/-- The Fast Scratchpad and the core module of the baseline machine adjoin (00_scope.md R7). -/
theorem isPresent_baseline {s : State} (h : s.cfg = Config.baseline) (a : Addr) :
    s.isPresent a = true ↔ 15872 ≤ a.toNat ∧ a.toNat ≤ 32767 := by
  rw [State.isPresent, h, inRanges_iff]
  simp only [Config.baseline, Config.oneModule, List.mem_cons, List.not_mem_nil, or_false, exists_eq_or_imp,
    exists_eq_left]
  omega

/-- Settles O17: one lemma above for each place where an access stops. -/
theorem accessesStop : Obligations.AccessesStop := by
  unfold Obligations.AccessesStop
  intro s a v h
  refine ⟨fun ho => ⟨State.load32_odd ho, State.load64_error_first (State.load32_odd ho), if_pos ho⟩,
    fun hp => ⟨State.load16_absent hp, State.write16_absent (by simpa using hp)⟩,
    fun hp hq => State.write16_protected (by simpa using hp) (by simpa using hq),
    fun ho => ⟨?_, State.load64_absent_second ho, ?_, ?_, ?_, ?_⟩,
    inRanges_iff _ a, inRanges_iff _ a, s.inFast_iff a, fun hc => ⟨isPresent_baseline hc a, ?_⟩⟩
  case refine_1 =>
    exact fun hp => ⟨State.load32_absent ho hp, State.load64_error_first (State.load32_absent ho hp)⟩
  case refine_2 =>
    exact fun hp => State.write32_error_high ho (State.write16_absent (by simpa using hp))
  case refine_3 =>
    exact fun hp hq => State.write32_error_high ho (State.write16_protected (by simpa using hp) (by simpa using hq))
  case refine_4 =>
    intro hp hq hp1
    refine State.write32_error_low ho (by simp [State.writable16, hp, hq]) (State.write16_absent ?_)
    exact (State.storeTurn_isPresent s false a _).trans hp1
  case refine_5 =>
    intro hp hq hp1 hq1
    refine State.write32_error_low ho (by simp [State.writable16, hp, hq]) (State.write16_protected ?_ ?_)
    · exact (State.storeTurn_isPresent s false a _).trans hp1
    · exact (State.storeTurn_isProtected s false a _).trans hq1
  case refine_6 =>
    rw [s.inFast_iff, hc]
    rfl

end Sys2Proof.Machine
end

section
/-! PROOFS. What an instruction can do to the state, as a composition of a few elementary changes, so that a property
kept by each of them is kept by every instruction. -/

namespace Sys2Proof.Machine

/-! ### Reads of instructions are turns of the I/O unit -/

theorem State.load16_turned {s t : State} {a : Addr} {v : Half} (h : s.load16 a = .ok (v, t)) : s.Turned t := by
  obtain ⟨_, rfl⟩ := State.load16_ok.1 h
  exact s.ioTurn_turned

theorem State.load32_turned {s t : State} {a : Addr} {v : Word32} (h : s.load32 a = .ok (v, t)) : s.Turned t := by
  obtain ⟨_, rfl⟩ := State.load32_ok.1 h
  exact s.ioTurn_turned

theorem State.load64_turned {s t : State} {a : Addr} {v : BitVec 64} (h : s.load64 a = .ok (v, t)) : s.Turned t := by
  obtain ⟨_, _, _, _, _, rfl⟩ := State.load64_ok.1 h
  exact s.ioTurn_turned.trans s.ioTurn.ioTurn_turned

theorem State.operand_turned {s t : State} {r : Ref} {v : Word32} (h : s.operand r = .ok (v, t)) : s.Turned t := by
  unfold State.operand at h
  split at h
  · cases h
    exact .refl s
  · split at h
    · obtain ⟨⟨_, _⟩, hl, hr⟩ := bind_ok.1 h
      cases hr
      exact State.load16_turned hl
    · exact State.load32_turned h

theorem State.indexOperand_turned {s t : State} {r : Ref} {v : Addr} (h : s.indexOperand r = .ok (v, t)) :
    s.Turned t := by
  unfold State.indexOperand at h
  split at h
  · cases h
    exact .refl s
  · obtain ⟨⟨_, _⟩, hl, hr⟩ := bind_ok.1 h
    cases hr
    exact State.load32_turned hl

theorem State.maskOperand_turned {s t : State} {r : Ref} {w : Word32} (h : s.maskOperand r = .ok (w, t)) :
    s.Turned t := by
  unfold State.maskOperand at h
  split at h
  · cases h
    exact .refl s
  · exact State.load32_turned h

/-- Following pointer words only reads them (30_encoding.md R114). -/
theorem State.chain_turned {desig : Bool} {n : Nat} {s t : State} {ea : Addr} {i m h : Bool} {r : Ref}
    (hc : s.chain desig n ea i m h = .ok (r, t)) : s.Turned t := by
  induction n generalizing s ea i m h with
  | zero =>
    cases i with
    | false =>
      cases hc
      exact .refl _
    | true => cases m <;> cases hc
  | succ n ih =>
    cases i with
    | false =>
      cases hc
      exact .refl _
    | true =>
      cases m with
      | true => cases hc
      | false =>
        obtain ⟨⟨w, u⟩, hl, hr⟩ := bind_ok.1 hc
        dsimp only at hr
        split at hr
        · cases hr
        · exact (State.load32_turned hl).trans (ih hr)

/-- A reference is formed from `s` by reads alone. -/
def RefAccess.Reads (s : State) (ref : RefAccess) : Prop := ∀ {r t}, ref = .ok (r, t) → s.Turned t

theorem State.direct_reads {s : State} {r : Ref} : (s.direct r).Reads s := by
  intro _ _ h
  cases h
  exact .refl s

theorem State.longRef_reads {s : State} {desig i m h : Bool} {index : Addr} {m16 : BitVec 16} :
    (s.longRef desig index i m h m16).Reads s :=
  fun hr => State.chain_turned hr

theorem noHalf_reads {s : State} {ref : RefAccess} (h : ref.Reads s) : (noHalf ref).Reads s :=
  fun hr => h (noHalf_ok.1 hr).1

theorem noImmediateHalf_reads {s : State} {ref : RefAccess} (h : ref.Reads s) : (noImmediateHalf ref).Reads s :=
  fun hr => h (noImmediateHalf_ok.1 hr).1

theorem noHalfLogical_reads {s : State} {ref : RefAccess} (h : ref.Reads s) : (noHalfLogical ref).Reads s :=
  fun hr => h (noHalfLogical_ok.1 hr).1

theorem noDesignator_reads {s : State} {ref : RefAccess} (h : ref.Reads s) : (noDesignator ref).Reads s :=
  fun hr => h (noDesignator_ok.1 hr).1

theorem State.ioAddr_turned {s t : State} {i : Bool} {m16 : BitVec 16} {ea : Addr} (h : s.ioAddr i m16 = .ok (ea, t)) :
    s.Turned t := by
  obtain ⟨⟨r, u⟩, hl, hr⟩ := bind_ok.1 h
  dsimp only at hr
  split at hr
  · cases hr
  · cases hr
    exact State.longRef_reads hl

theorem State.pointerTarget_turned {s t : State} {ea loc : Addr} (h : s.pointerTarget ea = .ok (loc, t)) :
    s.Turned t := by
  obtain ⟨⟨w, u⟩, hl, hr⟩ := bind_ok.1 h
  obtain ⟨⟨r, v⟩, hc, hr⟩ := bind_ok.1 hr
  dsimp only at hr
  split at hr
  · cases hr
  · cases hr
    exact (State.load32_turned hl).trans (State.chain_turned hc)

/-! ### Elementary changes -/

/-- `t` is `s` but for A, B, PC, OAR and the count of free values. -/
def State.RegistersOnly (s t : State) : Prop :=
  t = { s with regA := t.regA, regB := t.regB, pc := t.pc, oar := t.oar, draws := t.draws }

theorem State.RegistersOnly.trans {s t u : State} (h : s.RegistersOnly t) (g : t.RegistersOnly u) :
    s.RegistersOnly u := by
  unfold State.RegistersOnly at *
  rw [g, h]

theorem State.RegistersOnly.sr_eq {s t : State} (h : s.RegistersOnly t) : t.sr = s.sr := by
  rw [h]

theorem State.setOar_registers {s : State} {a : Addr} : s.RegistersOnly (s.setOar a) := rfl

theorem State.advance_registers {s : State} {k : Addr} : s.RegistersOnly (s.advance k) := rfl

/-- Status that an instruction leaves: the bits it does not write are as before (10_state.md R31). -/
def StatusKept (i : Instr) (old new : BitVec 16) : Prop :=
  ∀ n, n < 16 → n ∉ statusWritten i → new.getLsbD n = old.getLsbD n

/-- `t` comes from `s` by changes that instruction `i` may make, each in a state that the earlier ones left. -/
inductive Effect (i : Instr) : State → State → Prop
  /-- Reads of memory, before which the I/O unit acts (20_memory.md R68, R80). -/
  | turned {s t : State} : s.Turned t → Effect i s t
  /-- A halfword store (R67). -/
  | store16 {s t : State} {a : Addr} {v : Half} : s.store16 a v = .ok t → Effect i s t
  /-- A fullword store (R67). -/
  | store32 {s t : State} {a : Addr} {v : Word32} : s.store32 a v = .ok t → Effect i s t
  /-- A, B, PC, OAR and free values, which any instruction may write. -/
  | registers {s t : State} : s.RegistersOnly t → Effect i s t
  /-- The status bits that the instruction writes (10_state.md R31). -/
  | status {s : State} {v : BitVec 16} : StatusKept i s.sr v → Effect i s (s.setSr v)
  /-- The index register that the instruction writes (10_state.md R30). -/
  | index {s : State} {n : BitVec 4} {v : Addr} : indexWritten i = some n → Effect i s (s.setXr n v)
  /-- LDI's write of MR, which clears requests of masked levels (60_exceptions.md R466). -/
  | mask {s : State} {v : BitVec 16} {x1 : BitVec 3} {x2 : BitVec 4} {d m : Bool} {m16 : BitVec 16} :
    i = .ldiL x1 x2 d m m16 → Effect i s (s.loadMask v)
  /-- RTA's completion of a level (60_exceptions.md R475). -/
  | complete {s : State} {ea : Addr} :
    ((∃ x1 m7, i = .rtaS x1 m7) ∨ ∃ x1 x2 d m h m16, i = .rtaL x1 x2 d m h m16) → Effect i s (s.completeLevel ea)
  /-- The end of a control panel request (60_exceptions.md R483). -/
  | panel {s : State} {dc : BitVec 6} : isInputOutput i = true → Effect i s (s.panelServed dc)
  /-- A transfer on the input/output channel (48_io.md R431). -/
  | transfer {s t : State} : isInputOutput i = true →
    t = { s with busIn := t.busIn, ioLog := t.ioLog, draws := t.draws } → Effect i s t
  /-- HLT with the test signal present (47_nonmem.md R407). -/
  | halt {s : State} : i = .hlt → Effect i s (s.setHalted true)
  /-- One change after another. -/
  | trans {s t u : State} : Effect i s t → Effect i t u → Effect i s u

theorem Effect.storeBack {i : Instr} {s t : State} {a : Addr} {half : Bool} {v : Word32}
    (h : s.storeBack a half v = .ok t) : Effect i s t := by
  rcases State.storeBack_ok.1 h with ⟨_, hs⟩ | ⟨_, hs⟩
  · exact .store16 hs
  · exact .store32 hs

theorem State.write16_sr {s t : State} {a : Addr} {v : Half} (h : s.write16 a v = .ok t) : t.sr = s.sr := by
  rw [(State.write16_stores h).frame, State.setMem_sr]

theorem State.write32_sr {s t : State} {a : Addr} {v : Word32} (h : s.write32 a v = .ok t) : t.sr = s.sr := by
  rw [(State.write32_stores h).frame, State.setMem_sr]

theorem State.storeBack_sr {s t : State} {a : Addr} {half : Bool} {v : Word32} (h : s.storeBack a half v = .ok t) :
    t.sr = s.sr := by
  rcases State.storeBack_ok.1 h with ⟨_, hw⟩ | ⟨_, hw⟩
  · rw [State.write16_sr hw, State.storeTurn_frame, State.ioTurn_sr]
  · rw [State.write32_sr hw, State.storeTurn_frame, State.ioTurn_sr]

/-! ### Status and the operations -/

theorem StatusKept.refl {i : Instr} {v : BitVec 16} : StatusKept i v v := fun _ _ _ => rfl

theorem withBit_getLsbD_ne {v : BitVec 16} {k n : Nat} {b : Bool} (h : n ≠ k) :
    (withBit v k b).getLsbD n = v.getLsbD n := by
  have hb : (1#16 <<< k).getLsbD n = false := by
    rw [BitVec.getLsbD_shiftLeft, BitVec.getLsbD_one]
    by_cases hk : n < k
    · simp [hk]
    · simp [show n - k ≠ 0 by omega]
  unfold withBit
  cases b with
  | true => simp [hb]
  | false =>
    by_cases hn : n < 16
    · simp only [Bool.false_eq_true, if_false, BitVec.getLsbD_and, BitVec.getLsbD_not, hb, hn, decide_true,
        Bool.not_false, Bool.and_self, Bool.and_true]
    · rw [BitVec.getLsbD_of_ge _ _ (by omega), BitVec.getLsbD_of_ge _ _ (by omega)]

theorem StatusKept.withBit {i : Instr} {v : BitVec 16} {k : Nat} {b : Bool} (h : k ∈ statusWritten i) :
    StatusKept i v (withBit v k b) :=
  fun _ _ hn => withBit_getLsbD_ne fun e => hn (e ▸ h)

theorem StatusKept.withCarry {i : Instr} {v : BitVec 16} {c d : Bool} (h : statusWritten i = [12, 13]) :
    StatusKept i v (withCarry v c d) := by
  intro n hn hw
  rw [Machine.withCarry, StatusKept.withBit (i := i) (by simp [h]) n hn hw,
    StatusKept.withBit (i := i) (by simp [h]) n hn hw]

/-- A 4 bit selector names SR8 to SR11 (47_nonmem.md R408). -/
theorem programFlags_getLsbD {f : BitVec 4} {n : Nat} (hn : n < 16) (h : n ∉ [8, 9, 10, 11]) :
    (programFlags f).getLsbD n = false := by
  have all : ∀ f : BitVec 4, ∀ n, n < 16 → n ∉ [8, 9, 10, 11] → (programFlags f).getLsbD n = false := by decide
  exact all f n hn h

theorem StatusKept.setFlags {i : Instr} {v : BitVec 16} {f : BitVec 4} (h : statusWritten i = [8, 9, 10, 11]) :
    StatusKept i v (v ||| programFlags f) := by
  intro n hn hw
  rw [BitVec.getLsbD_or, programFlags_getLsbD hn (h ▸ hw), Bool.or_false]

theorem StatusKept.resetFlags {i : Instr} {v : BitVec 16} {f : BitVec 4} (h : statusWritten i = [8, 9, 10, 11]) :
    StatusKept i v (v &&& ~~~programFlags f) := by
  intro n hn hw
  rw [BitVec.getLsbD_and, BitVec.getLsbD_not, programFlags_getLsbD hn (h ▸ hw)]
  simp [hn]

theorem mulOp_registers (s : State) (half : Bool) (v : Word32) : s.RegistersOnly (mulOp s half v) := by
  cases half <;> rfl

theorem dvdOp_registers (s : State) (half : Bool) (v : Word32) : s.RegistersOnly (dvdOp s half v) := by
  cases half with
  | false =>
    simp only [dvdOp, dvdFull, Bool.false_eq_true, if_false]
    split <;> rfl
  | true =>
    simp only [dvdOp, dvdHalf, if_true]
    split <;> rfl

/-! ### The shared operations -/

section
variable {i : Instr} {s t : State} {ref : RefAccess} {len : Addr}

theorem loadRegister_effect {set : State → Word32 → State} (h : loadRegister set ref len = .next t)
    (href : ref.Reads s) (hset : ∀ (u : State) v, u.RegistersOnly (set u v)) : Effect i s t := by
  obtain ⟨r, u, v, u1, hr, hv, rfl⟩ := loadRegister_next.1 h
  have turned : s.Turned u1 := (href hr).trans (State.operand_turned hv)
  exact .trans (.turned turned) (.registers (.trans State.setOar_registers (.trans (hset _ _) State.advance_registers)))

theorem storeRegister_effect {v : Word32} (h : storeRegister v ref len = .next t) (href : ref.Reads s) :
    Effect i s t := by
  obtain ⟨r, u, u1, hr, _, hs, rfl⟩ := storeRegister_next.1 h
  exact .trans (.turned (href hr))
    (.trans (.registers State.setOar_registers) (.trans (.storeBack hs) (.registers rfl)))

theorem storeHalfA_effect (h : storeHalfA ref len = .next t) (href : ref.Reads s) : Effect i s t := by
  obtain ⟨r, u, u1, hr, _, hs, rfl⟩ := storeHalfA_next.1 h
  exact .trans (.turned (href hr)) (.trans (.registers State.setOar_registers) (.trans (.store16 hs) (.registers rfl)))

theorem storeWord_effect {w : Word32} (h : storeWord w ref len = .next t) (href : ref.Reads s) : Effect i s t := by
  obtain ⟨r, u, u1, hr, _, hs, rfl⟩ := storeWord_next.1 h
  exact .trans (.turned (href hr)) (.trans (.registers State.setOar_registers) (.trans (.store32 hs) (.registers rfl)))

theorem loadIndex_effect {n : BitVec 4} (h : loadIndex n ref len = .next t) (href : ref.Reads s)
    (hn : indexWritten i = some n) : Effect i s t := by
  obtain ⟨r, u, v, u1, hr, hv, rfl⟩ := loadIndex_next.1 h
  exact .trans (.turned ((href hr).trans (State.indexOperand_turned hv)))
    (.trans (.registers State.setOar_registers) (.trans (.index hn) (.registers rfl)))

theorem loadAddress_effect (h : loadAddress ref len = .next t) (href : ref.Reads s) : Effect i s t := by
  obtain ⟨r, u, hr, rfl⟩ := loadAddress_next.1 h
  exact .trans (.turned (href hr)) (.registers rfl)

theorem aluRegister_effect {set : State → Word32 → State} {op : AluOp} (h : aluRegister set op ref len = .next t)
    (href : ref.Reads s) (hset : ∀ (u : State) v, u.RegistersOnly (set u v))
    (hop : ∀ u v, StatusKept i u.sr (op u v).2) : Effect i s t := by
  obtain ⟨r, u, v, u1, hr, hv, rfl⟩ := aluRegister_next.1 h
  have regs : u1.RegistersOnly (set (u1.setOar r.addr) (op u1 v).1) := .trans State.setOar_registers (hset _ _)
  have sr : (set (u1.setOar r.addr) (op u1 v).1).sr = u1.sr := regs.sr_eq
  exact .trans (.turned ((href hr).trans (State.operand_turned hv)))
    (.trans (.registers regs) (.trans (.status (by rw [sr]; exact hop u1 v)) (.registers rfl)))

theorem aluReturn_effect {op : AluOp} (h : aluReturn op ref len = .next t) (href : ref.Reads s)
    (hop : ∀ u v, StatusKept i u.sr (op u v).2) : Effect i s t := by
  obtain ⟨r, u, v, u1, hr, hv, _, hcase⟩ := aluReturn_next.1 h
  have turned : s.Turned u1 := (href hr).trans (State.operand_turned hv)
  refine .trans (.turned turned) (.trans (.registers (State.setOar_registers (a := r.addr))) ?_)
  rcases hcase with ⟨_, u2, hs, rfl⟩ | ⟨_, rfl⟩
  · have sr : u2.sr = u1.sr := (State.storeBack_sr hs).trans rfl
    exact .trans (.storeBack hs) (.trans (.status (by rw [sr]; exact hop u1 v)) (.registers rfl))
  · exact .registers rfl

theorem regOperation_effect {op : RegOp} (h : regOperation op ref len = .next t) (href : ref.Reads s)
    (hop : ∀ (u : State) half v, u.RegistersOnly (op u half v)) : Effect i s t := by
  obtain ⟨r, u, v, u1, hr, hv, rfl⟩ := regOperation_next.1 h
  have turned : s.Turned u1 := (href hr).trans (State.operand_turned hv)
  exact .trans (.turned turned)
    (.registers (.trans State.setOar_registers (.trans (hop _ _ _) State.advance_registers)))

theorem regReturn_effect {op : RegOp} (h : regReturn op ref len = .next t) (href : ref.Reads s)
    (hop : ∀ (u : State) half v, u.RegistersOnly (op u half v)) : Effect i s t := by
  obtain ⟨r, u, v, u1, hr, hv, _, hcase⟩ := regReturn_next.1 h
  have turned : s.Turned u1 := (href hr).trans (State.operand_turned hv)
  have regs : u1.RegistersOnly (op (u1.setOar r.addr) r.half v) := .trans State.setOar_registers (hop _ _ _)
  refine .trans (.turned turned) (.trans (.registers regs) ?_)
  rcases hcase with ⟨_, u2, hs, rfl⟩ | ⟨_, rfl⟩
  · exact .trans (.storeBack hs) (.registers rfl)
  · exact .registers rfl

theorem floatRegister_effect {n : Nat} {load : State → Addr → Except Fault (BitVec n × State)}
    {op : State → BitVec n → State} (h : floatRegister load op ref len = .next t) (href : ref.Reads s)
    (hload : ∀ {u w : State} {a v}, load u a = .ok (v, w) → u.Turned w)
    (hop : ∀ (u : State) v, u.RegistersOnly (op u v)) : Effect i s t := by
  obtain ⟨r, u, v, u1, hr, _, hv, rfl⟩ := floatRegister_next.1 h
  exact .trans (.turned ((href hr).trans (hload hv)))
    (.registers (.trans State.setOar_registers (.trans (hop _ _) State.advance_registers)))

theorem floatReturn_effect {n : Nat} {load : State → Addr → Except Fault (BitVec n × State)}
    {op : State → BitVec n → State} (h : floatReturn load op ref len = .next t) (href : ref.Reads s)
    (hload : ∀ {u w : State} {a v}, load u a = .ok (v, w) → u.Turned w)
    (hop : ∀ (u : State) v, u.RegistersOnly (op u v)) : Effect i s t := by
  obtain ⟨r, u, v, u1, hr, _, hv, hcase⟩ := floatReturn_next.1 h
  have regs : u1.RegistersOnly (op (u1.setOar r.addr) v) := .trans State.setOar_registers (hop _ _)
  refine .trans (.turned ((href hr).trans (hload hv))) (.trans (.registers regs) ?_)
  rcases hcase with ⟨_, u2, hs, rfl⟩ | ⟨_, rfl⟩
  · exact .trans (.store32 hs) (.registers rfl)
  · exact .registers rfl

theorem returnAddress_effect (h : returnAddress ref = .next t) (href : ref.Reads s)
    (hi : (∃ x1 m7, i = .rtaS x1 m7) ∨ ∃ x1 x2 d m h m16, i = .rtaL x1 x2 d m h m16) : Effect i s t := by
  obtain ⟨r, u, w, u1, hr, hl, rfl⟩ := returnAddress_next.1 h
  exact .trans (.turned ((href hr).trans (State.load32_turned hl)))
    (.trans (.registers State.setOar_registers) (.trans (.complete hi) (.registers rfl)))

theorem skipMasked_effect (h : skipMasked ref len = .next t) (href : ref.Reads s) : Effect i s t := by
  obtain ⟨r, u, v, u1, hr, hv, rfl⟩ := skipMasked_next.1 h
  exact .trans (.turned ((href hr).trans (State.operand_turned hv))) (.registers rfl)

theorem testIndex_effect {p : Addr → Addr → Bool} {n : BitVec 4} (h : testIndex p n ref len = .next t)
    (href : ref.Reads s) : Effect i s t := by
  obtain ⟨r, u, v, u1, hr, hv, rfl⟩ := testIndex_next.1 h
  exact .trans (.turned ((href hr).trans (State.indexOperand_turned hv))) (.registers rfl)

theorem modifyIndex_effect {op : Addr → Addr → Addr} {n : BitVec 4} (h : modifyIndex op n ref len = .next t)
    (href : ref.Reads s) (hn : indexWritten i = some n) : Effect i s t := by
  obtain ⟨r, u, v, u1, hr, hv, rfl⟩ := modifyIndex_next.1 h
  exact .trans (.turned ((href hr).trans (State.indexOperand_turned hv)))
    (.trans (.registers State.setOar_registers) (.trans (.index hn) (.registers rfl)))

/-! ### Block transfers -/

theorem moveBlock_effect {toFast : Bool} {n : Nat} {s t : State} {c f : Addr}
    (h : s.moveBlock toFast c f n = .ok t) : Effect i s t := by
  induction n generalizing s c f with
  | zero =>
    cases h
    exact .registers rfl
  | succ n ih =>
    obtain ⟨u, hm, hr⟩ := bind_ok.1 h
    obtain ⟨_, w, s1, hl, hs⟩ := State.moveWord_ok.1 hm
    exact .trans (.turned (State.load32_turned hl)) (.trans (.store32 hs) (ih hr))

theorem blockTransfer_effect {toFast : Bool} {n : Nat} (h : blockTransfer toFast s n = .next t)
    (hi : indexWritten i = some 0#4) : Effect i s t := by
  obtain ⟨u, hm, rfl⟩ := blockTransfer_next.1 h
  exact .trans (moveBlock_effect hm)
    (.trans (.registers (t := u.setB _) rfl) (.trans (.index hi) (.registers rfl)))

/-! ### Instructions with a meaning of their own -/

theorem execLdsL_effect {x1 : BitVec 3} {x2 : BitVec 4} {d m : Bool} {m16 : BitVec 16}
    (h : execLdsL x1 x2 d m m16 s = .next t) : Effect (.ldsL x1 x2 d m m16) s t := by
  have all : ∀ old new, StatusKept (.ldsL x1 x2 d m m16) old new := by
    intro old new n hn hw
    simp only [statusWritten, List.mem_cons, List.not_mem_nil, or_false] at hw
    omega
  obtain ⟨⟨r, u⟩, hr, hk⟩ := bind_ok.1 (finish_next.1 h)
  refine .trans (.turned (State.longRef_reads hr)) ?_
  dsimp only at hk
  split at hk
  · cases hk
    exact .trans (.registers State.setOar_registers) (.trans (.status (all _ _)) (.registers rfl))
  · obtain ⟨⟨w, u1⟩, hl, hk⟩ := bind_ok.1 hk
    cases hk
    exact .trans (.turned (State.load32_turned hl))
      (.trans (.registers State.setOar_registers) (.trans (.status (all _ _)) (.registers rfl)))

theorem execLdiL_effect {x1 : BitVec 3} {x2 : BitVec 4} {d m : Bool} {m16 : BitVec 16}
    (h : execLdiL x1 x2 d m m16 s = .next t) : Effect (.ldiL x1 x2 d m m16) s t := by
  obtain ⟨⟨r, u⟩, hr, hk⟩ := bind_ok.1 (finish_next.1 h)
  obtain ⟨⟨w, u1⟩, hw, hk⟩ := bind_ok.1 hk
  cases hk
  exact .trans (.turned ((State.longRef_reads hr).trans (State.maskOperand_turned hw)))
    (.trans (.registers State.setOar_registers) (.trans (.mask rfl) (.registers rfl)))

theorem execJs_effect {x1 : BitVec 3} {m18 : BitVec 18} (h : execJs x1 m18 s = .next t) : Effect i s t := by
  have hk := finish_next.1 h
  dsimp only at hk
  split at hk
  · cases hk
  · obtain ⟨⟨loc, u⟩, hp, hk⟩ := bind_ok.1 hk
    obtain ⟨u1, hs, hk⟩ := bind_ok.1 hk
    cases hk
    exact .trans (.turned (State.pointerTarget_turned hp))
      (.trans (.registers State.setOar_registers) (.trans (.store32 hs) (.registers rfl)))

theorem jumpIf_effect {taken : Bool} {target : Addr} (h : s.jumpIf taken target len = .next t) : Effect i s t := by
  cases h
  cases taken <;> exact .registers rfl

theorem execDoa_effect {c k : Bool} {dc : BitVec 6} (h : execDoa c dc k s = .next t) : Effect (.doa c dc k) s t := by
  cases h
  exact .trans (.transfer (t := s.devOut dc c k s.regA) rfl rfl) (.trans (.panel rfl) (.registers rfl))

theorem execDia_effect {c k : Bool} {dc : BitVec 6} (h : execDia c dc k s = .next t) : Effect (.dia c dc k) s t := by
  cases h
  exact .trans (.transfer (t := s.devIn dc c k) rfl rfl)
    (.trans (.registers (t := (s.devIn dc c k).setA s.busWord) rfl) (.trans (.panel rfl) (.registers rfl)))

theorem execDom_effect {c d k : Bool} {dc : BitVec 6} {m16 : BitVec 16} (h : execDom c dc d k m16 s = .next t) :
    Effect (.dom c dc d k m16) s t := by
  obtain ⟨⟨ea, u⟩, hr, hk⟩ := bind_ok.1 (finish_next.1 h)
  obtain ⟨⟨w, u1⟩, hl, hk⟩ := bind_ok.1 hk
  cases hk
  exact .trans (.turned ((State.ioAddr_turned hr).trans (State.load32_turned hl)))
    (.trans (.registers (State.setOar_registers (a := ea)))
      (.trans (.transfer (t := (u1.setOar ea).devOut dc c k w) rfl rfl) (.trans (.panel rfl) (.registers rfl))))

theorem execDim_effect {c d k : Bool} {dc : BitVec 6} {m16 : BitVec 16} (h : execDim c dc d k m16 s = .next t) :
    Effect (.dim c dc d k m16) s t := by
  obtain ⟨⟨ea, u⟩, hr, hk⟩ := bind_ok.1 (finish_next.1 h)
  obtain ⟨u1, hs, hk⟩ := bind_ok.1 hk
  cases hk
  exact .trans (.turned (State.ioAddr_turned hr))
    (.trans (.registers (State.setOar_registers (a := ea)))
      (.trans (.transfer (t := (u.setOar ea).devIn dc c k) rfl rfl)
        (.trans (.store32 hs) (.trans (.panel rfl) (.registers rfl)))))

theorem execPtr_effect {x1 : BitVec 3} {x2 : BitVec 4} {d m : Bool} {m16 : BitVec 16}
    (h : execPtr x1 x2 d m m16 s = .next t) : Effect i s t := by
  unfold execPtr at h
  split at h
  · exact aluReturn_effect h (noHalfLogical_reads State.longRef_reads) fun _ _ => StatusKept.refl
  · exact aluRegister_effect h (noHalfLogical_reads State.longRef_reads) (fun _ _ => rfl) fun _ _ => StatusKept.refl

/-- A change of status bits that the instruction writes, and the next instruction. -/
theorem status_effect {v : BitVec 16} (h : Host.Outcome.next ((s.setSr v).advance len) = (.next t : StepOutcome))
    (hv : StatusKept i s.sr v) : Effect i s t := by
  cases h
  exact .trans (.status hv) (.registers rfl)

theorem execHlt_effect (h : execHlt s = .next t) : Effect .hlt s t := by
  unfold execHlt at h
  cases h
  split
  · exact .trans (.halt rfl) (.registers rfl)
  · exact .registers rfl

theorem execCfx_effect (h : execCfx s = .next t) : Effect i s t := by
  unfold execCfx at h
  split at h
  all_goals
    cases h
    exact .registers rfl

theorem execLxa_effect {f : BitVec 4} (h : execLxa f s = .next t) : Effect (.lxa f) s t := by
  unfold execLxa at h
  split at h
  · cases h
  · cases h
    exact .trans (.index rfl) (.registers rfl)

/-- An instruction that only writes registers and goes on. -/
theorem registers_effect {u : State} (h : Host.Outcome.next u = (.next t : StepOutcome)) (hu : s.RegistersOnly u) :
    Effect i s t := by
  cases h
  exact .registers hu

end

/-! ### Every instruction -/

/-- Whatever an instruction does is made of the changes that it may make. -/
theorem exec_effect {i : Instr} {s t : State} (h : exec i s = .next t) : Effect i s t := by
  cases i with
  -- 40_load_store.md
  | ldaS | ldbS => exact loadRegister_effect h State.direct_reads fun _ _ => rfl
  | ldaL | ldahL | ldbL | ldbhL => exact loadRegister_effect h State.longRef_reads fun _ _ => rfl
  | staS | stbS => exact storeRegister_effect h State.direct_reads
  | staL | stahL | stbL | stbhL => exact storeRegister_effect h State.longRef_reads
  | sthS => exact storeHalfA_effect h State.direct_reads
  | sthL => exact storeHalfA_effect h State.longRef_reads
  | stxS => exact storeWord_effect h State.direct_reads
  | stxL => exact storeWord_effect h (noImmediateHalf_reads State.longRef_reads)
  | stsL | stiL => exact storeWord_effect h State.longRef_reads
  | ldxS => exact loadIndex_effect h State.direct_reads rfl
  | ldxL => exact loadIndex_effect h (noHalf_reads State.longRef_reads) rfl
  | laeS => exact loadAddress_effect (ref := s.direct _) h State.direct_reads
  | laeL => exact loadAddress_effect h State.longRef_reads
  | ldsL => exact execLdsL_effect h
  | ldiL => exact execLdiL_effect h
  -- 41_fixed_arith.md
  | aduS | adlS | sbuS | sblS =>
    exact aluRegister_effect h State.direct_reads (fun _ _ => rfl) fun _ _ => StatusKept.withCarry rfl
  | aduL | aduhL | adlL | adlhL | sbuL | sbuhL | sblL | sblhL =>
    exact aluRegister_effect h State.longRef_reads (fun _ _ => rfl) fun _ _ => StatusKept.withCarry rfl
  | adurS | adlrS | sburS | sblrS => exact aluReturn_effect h State.direct_reads fun _ _ => StatusKept.withCarry rfl
  | adurL | aduhrL | adlrL | adlhrL | sburL | sbuhrL | sblrL | sblhrL =>
    exact aluReturn_effect h State.longRef_reads fun _ _ => StatusKept.withCarry rfl
  | mulS => exact regOperation_effect h State.direct_reads mulOp_registers
  | mulL | mulhL => exact regOperation_effect h State.longRef_reads mulOp_registers
  | mulrS => exact regReturn_effect h State.direct_reads mulOp_registers
  | mulrL | mulhrL => exact regReturn_effect h State.longRef_reads mulOp_registers
  | dvdS => exact regOperation_effect h State.direct_reads dvdOp_registers
  | dvdL | dvdhL => exact regOperation_effect h State.longRef_reads dvdOp_registers
  | dvdrS => exact regReturn_effect h State.direct_reads dvdOp_registers
  | dvdrL | dvdhrL => exact regReturn_effect h State.longRef_reads dvdOp_registers
  -- 42_float.md
  | adfS | sbfS | mlfS | dvfS =>
    exact floatRegister_effect h State.direct_reads State.load32_turned fun _ _ => rfl
  | adfL | sbfL | mlfL | dvfL =>
    exact floatRegister_effect h State.longRef_reads State.load32_turned fun _ _ => rfl
  | adfrS | sbfrS | mlfrS | dvfrS =>
    exact floatReturn_effect h State.direct_reads State.load32_turned fun _ _ => rfl
  | adfrL | sbfrL | mlfrL | dvfrL =>
    exact floatReturn_effect h State.longRef_reads State.load32_turned fun _ _ => rfl
  | afdS | sfdS => exact floatRegister_effect h State.direct_reads State.load64_turned fun _ _ => rfl
  | afdL | sfdL => exact floatRegister_effect h State.longRef_reads State.load64_turned fun _ _ => rfl
  | afdrS | sfdrS => exact floatReturn_effect h State.direct_reads State.load64_turned fun _ _ => rfl
  | afdrL | sfdrL => exact floatReturn_effect h State.longRef_reads State.load64_turned fun _ _ => rfl
  -- 43_logical_rta_sam.md
  | andS | lorS | exoS =>
    exact aluRegister_effect h State.direct_reads (fun _ _ => rfl) fun _ _ => StatusKept.refl
  | andL | lorL | exoL =>
    exact aluRegister_effect h (noHalfLogical_reads State.longRef_reads) (fun _ _ => rfl) fun _ _ => StatusKept.refl
  | andrS | lorrS | exorS => exact aluReturn_effect h State.direct_reads fun _ _ => StatusKept.refl
  | andrL | lorrL | exorL =>
    exact aluReturn_effect h (noHalfLogical_reads State.longRef_reads) fun _ _ => StatusKept.refl
  | rtaS => exact returnAddress_effect h State.direct_reads (.inl ⟨_, _, rfl⟩)
  | rtaL => exact returnAddress_effect h (noDesignator_reads State.longRef_reads) (.inr ⟨_, _, _, _, _, _, rfl⟩)
  | samS => exact skipMasked_effect h State.direct_reads
  | samL => exact skipMasked_effect h (noHalfLogical_reads State.longRef_reads)
  | ptr => exact execPtr_effect h
  -- 44_shift.md
  | slld | slcd | sll | srld | srad | srcd | sra | src => exact registers_effect h rfl
  -- 45_index.md
  | icnS => exact testIndex_effect h State.direct_reads
  | icnL | iclL => exact testIndex_effect h State.longRef_reads
  | imnS => exact modifyIndex_effect h State.direct_reads rfl
  | imnL | impL => exact modifyIndex_effect h State.longRef_reads rfl
  -- 46_jump.md
  | jru | jrn | jrg | jrl | jgu | jan | jag | jal | jgf | jgs | jgw => exact jumpIf_effect h
  | js => exact execJs_effect h
  -- 47_nonmem.md
  | emi | dpi | dmi | epi | shm | rhm => exact status_effect h (StatusKept.withBit (by simp [statusWritten]))
  | setf f => exact status_effect h (StatusKept.setFlags rfl)
  | rstf f => exact status_effect h (StatusKept.resetFlags rfl)
  | hlt => exact execHlt_effect h
  | cfx => exact execCfx_effect h
  | cxf | eab | nop => exact registers_effect h rfl
  | lxa => exact execLxa_effect h
  -- 48_io.md
  | doa => exact execDoa_effect h
  | dia => exact execDia_effect h
  | dom => exact execDom_effect h
  | dim => exact execDim_effect h
  -- 49_block.md
  | mfm | mmf => exact blockTransfer_effect h rfl

end Sys2Proof.Machine
end

section
/-! PROOFS. The invariant of the machine: every elementary change of an instruction, the fetch before it and the
conclusion after it keep it (20_memory.md R73, R82; 60_exceptions.md R466, R472). -/

namespace Sys2Proof.Machine

/-- From `s` to `t` the configuration and the invariant are kept. -/
structure State.Keeps (s t : State) : Prop where
  cfg_eq : t.cfg = s.cfg
  inv : s.Inv → t.Inv

theorem State.Keeps.refl (s : State) : s.Keeps s := ⟨rfl, id⟩

theorem State.Keeps.trans {s t u : State} (h : s.Keeps t) (g : t.Keeps u) : s.Keeps u :=
  ⟨g.cfg_eq.trans h.cfg_eq, g.inv ∘ h.inv⟩

/-! ### Changes of memory and of what IR holds -/

/-- The addresses that IR may hold are right halves if they were before and stay the same. -/
theorem heldOdd_of_addr_eq {x y : Option Held} (h : y.map Held.addr = x.map Held.addr)
    (hx : ∀ g, x = some g → isOdd g.addr = true) : ∀ g, y = some g → isOdd g.addr = true := by
  rintro g rfl
  cases x with
  | none => cases h
  | some f => exact Option.some.inj h ▸ hx f rfl

/-- A change that leaves the latches and MR alone keeps the invariant if memory stays well placed and IR holds the same
halfword. -/
theorem State.Keeps.of_memory {s t : State} (hc : t.cfg = s.cfg) (hw : s.mem.wf = true → t.mem.wf = true)
    (hm : s.mem.within s.cfg.present = true → t.mem.within s.cfg.present = true) (hr : t.mr = s.mr)
    (hp : t.pending = s.pending) (hd : t.holdoff = s.holdoff)
    (hh : t.irHeld.map Held.addr = s.irHeld.map Held.addr) : s.Keeps t := by
  refine ⟨hc, fun ⟨canonical, placed, latched, counted, heldOdd⟩ => ⟨hw canonical, ?_, ?_, ?_, ?_⟩⟩
  · rw [hc]
    exact hm placed
  · rw [State.allowed, hc, hr, hp]
    exact latched
  · rw [hc, hd]
    exact counted
  · exact heldOdd_of_addr_eq hh heldOdd

/-- A change of nothing that the invariant speaks of keeps it. -/
theorem State.Keeps.of_same {s t : State} (hc : t.cfg = s.cfg) (hm : t.mem = s.mem) (hr : t.mr = s.mr)
    (hp : t.pending = s.pending) (hd : t.holdoff = s.holdoff) (hh : t.irHeld = s.irHeld) : s.Keeps t :=
  .of_memory hc (hm ▸ id) (hm ▸ id) hr hp hd (hh ▸ rfl)

/-- IR holds the same halfword however much of its past is noted. -/
theorem held_addr_of_past {x y : Option Held} {l : List Half} (h : y = x.map fun g => { g with past := g.past ++ l }) :
    y.map Held.addr = x.map Held.addr := by
  subst h
  cases x <;> rfl

/-- Writes of the I/O unit keep the invariant, whatever they are. -/
theorem State.keeps_ioWrites (s : State) (ws : List IoWrite) : s.Keeps (ws.foldl State.ioWrite s) := by
  have frame := State.ioWrites_frame ws s
  obtain ⟨l, hl⟩ := State.ioWrites_held ws s
  obtain ⟨hw, hm⟩ := State.ioWrites_mem ws s
  refine .of_memory ?_ hw hm ?_ ?_ ?_ (held_addr_of_past hl)
  all_goals rw [frame]

theorem State.Turned.keeps {s t : State} (h : s.Turned t) : s.Keeps t := by
  obtain ⟨ws, _, _, hm, hh⟩ := h.order
  have frame := h.frame
  refine (s.keeps_ioWrites ws).trans (.of_same ?_ hm ?_ ?_ ?_ hh)
  all_goals rw [frame, State.ioWrites_frame]

theorem Stores.keeps {s t : State} (h : Stores s t) : s.Keeps t := by
  refine .of_memory ?_ h.canonical h.placed ?_ ?_ ?_ ?_
  all_goals
    rw [h.frame]
    rfl

theorem State.keeps_noteStore (s : State) (half : Bool) (a : Addr) : s.Keeps (s.noteStore half a) := by
  refine .of_memory rfl id id rfl rfl rfl ?_
  rw [State.noteStore, State.setHeld_irHeld]
  cases s.irHeld with
  | none => rfl
  | some h =>
    simp only [Option.map_some, Option.some.injEq]
    by_cases hc : h.addr = if half then a else a + 1
    · rw [if_pos hc, Held.remember]
    · rw [if_neg hc]

theorem State.keeps_storeTurn (s : State) (half : Bool) (a : Addr) : s.Keeps (s.storeTurn half a) :=
  s.ioTurn_turned.keeps.trans (s.ioTurn.keeps_noteStore half a)

/-! ### Changes of the latches -/

/-- Fewer pending requests keep the invariant. -/
theorem State.keeps_fewer_pending (s : State) (v : BitVec 16) : s.Keeps (s.setPending (s.pending &&& v)) := by
  refine ⟨rfl, fun ⟨canonical, placed, latched, counted, heldOdd⟩ => ⟨canonical, placed, ?_, counted, heldOdd⟩⟩
  calc (s.pending &&& v) &&& ~~~s.allowed
      = (s.pending &&& ~~~s.allowed) &&& v := by rw [BitVec.and_assoc, BitVec.and_comm v, BitVec.and_assoc]
    _ = 0#16 := by rw [latched, BitVec.zero_and]

theorem withBit_false (v : BitVec 16) (n : Nat) : withBit v n false = v &&& ~~~(1#16 <<< n) := rfl

theorem State.keeps_panelServed (s : State) (dc : BitVec 6) : s.Keeps (s.panelServed dc) := by
  unfold State.panelServed
  split
  · rw [withBit_false]
    exact s.keeps_fewer_pending _
  · exact .refl s

/-- A new MR leaves pending only what it allows (60_exceptions.md R466). -/
theorem State.keeps_loadMask (s : State) (v : BitVec 16) : s.Keeps (s.loadMask v) := by
  refine ⟨rfl, fun ⟨canonical, placed, _, counted, heldOdd⟩ => ⟨canonical, placed, ?_, counted, heldOdd⟩⟩
  change (s.pending &&& (s.setMr v).allowed) &&& ~~~(s.setMr v).allowed = 0#16
  rw [BitVec.and_assoc, BitVec.and_not_self]
  exact BitVec.and_zero

/-- Only requests of allowed levels are latched (R466). -/
theorem State.keeps_request (s : State) (levels : BitVec 16) : s.Keeps (s.request levels) := by
  refine ⟨rfl, fun ⟨canonical, placed, latched, counted, heldOdd⟩ => ⟨canonical, placed, ?_, counted, heldOdd⟩⟩
  change (s.pending ||| (levels &&& s.allowed)) &&& ~~~s.allowed = 0#16
  rw [BitVec.and_or_distrib_right, latched, BitVec.and_assoc, BitVec.and_not_self]
  simp

/-- The hold-off may count down. -/
theorem State.keeps_countDown (s : State) : s.Keeps (s.setHoldoff (s.holdoff - 1)) :=
  ⟨rfl, fun ⟨canonical, placed, latched, counted, heldOdd⟩ =>
    ⟨canonical, placed, latched, (Nat.sub_le _ _).trans counted, heldOdd⟩⟩

/-! ### A step -/

/-- Whatever an instruction may do keeps the invariant. -/
theorem Effect.keeps {i : Instr} {s t : State} (h : Effect i s t) : s.Keeps t := by
  induction h with
  | turned h => exact h.keeps
  | store16 h => exact (State.keeps_storeTurn _ _ _).trans (State.write16_stores h).keeps
  | store32 h => exact (State.keeps_storeTurn _ _ _).trans (State.write32_stores h).keeps
  | registers h =>
    rw [h]
    exact .of_same rfl rfl rfl rfl rfl rfl
  | transfer _ h =>
    rw [h]
    exact .of_same rfl rfl rfl rfl rfl rfl
  | status | index | complete | halt => exact .of_same rfl rfl rfl rfl rfl rfl
  | mask => exact State.keeps_loadMask _ _
  | panel => exact State.keeps_panelServed _ _
  | trans _ _ ih ih' => exact ih.trans ih'

theorem isOdd_add_one {a : Addr} (h : isOdd a = false) : isOdd (a + 1) = true := by
  have ha : a.toNat % 2 = 0 := by simpa [isOdd, BitVec.getLsbD, Nat.testBit_zero] using h
  simp only [isOdd, BitVec.getLsbD, Nat.testBit_zero, toNat_succ_of_even a h, decide_eq_true_eq]
  omega

/-- IR may receive any word, with the right half of one as what it holds. -/
theorem State.keeps_setIr (s : State) (w : Word32) (held : Option Held)
    (h : ∀ g, held = some g → isOdd g.addr = true) : s.Keeps (s.setIr w held) :=
  ⟨rfl, fun ⟨canonical, placed, latched, counted, _⟩ => ⟨canonical, placed, latched, counted, h⟩⟩

theorem State.keeps_nextHalf (s : State) : s.Keeps s.nextHalf.2 := by
  unfold State.nextHalf
  dsimp only
  split
  · exact .refl s
  · exact .of_same rfl rfl rfl rfl rfl rfl

theorem State.keeps_fetchShort (s : State) (h : Half) : s.Keeps (s.fetchShort h) := by
  unfold State.fetchShort
  split
  · exact s.keeps_setIr _ _ (by simp)
  · rename_i hpc
    refine s.keeps_setIr _ _ fun g hg => ?_
    cases hg
    exact isOdd_add_one (by simpa using hpc)

theorem decodeFetched_state {bytes : List Byte} {s t : State} {i : Instr} (h : decodeFetched bytes s = .ok (i, t)) :
    t = s := by
  unfold decodeFetched at h
  split at h <;> cases h
  rfl

theorem State.keeps_fetch {s t : State} {i : Instr} (h : s.fetch = .ok (i, t)) : s.Keeps t := by
  refine s.ioTurn_turned.keeps.trans ?_
  obtain ⟨_, _, hnow⟩ := bind_ok.1 h
  have next := s.ioTurn.keeps_nextHalf
  dsimp only at hnow
  split at hnow
  · split at hnow
    · cases hnow
    · obtain ⟨lo, _, hd⟩ := bind_ok.1 hnow
      rw [decodeFetched_state hd]
      exact next.trans (State.keeps_setIr _ _ _ (by simp))
  · rw [decodeFetched_state hnow]
    exact next.trans (State.keeps_fetchShort _ _)

theorem State.keeps_flushIo (s : State) : s.Keeps s.flushIo := by
  unfold State.flushIo
  split
  · exact (s.keeps_ioWrites _).trans (.of_same rfl rfl rfl rfl rfl rfl)
  · exact .refl s

theorem State.keeps_arrive (s : State) (a : Arrival) : s.Keeps (s.arrive a) := by
  have lines : s.Keeps (s.setLines (a.switches.getD s.switches) (a.testSignal.getD s.testSignal)) :=
    .of_same rfl rfl rfl rfl rfl rfl
  refine (lines.trans (State.keeps_request _ a.requests)).trans ?_
  unfold State.arrive
  dsimp only
  split <;> exact .of_same rfl rfl rfl rfl rfl rfl

theorem State.keeps_environment (s : State) : s.Keeps s.environment := by
  unfold State.environment
  split
  · exact s.keeps_flushIo
  · rename_i a rest _
    have taken : s.Keeps (s.setArrivals rest) := .of_same rfl rfl rfl rfl rfl rfl
    exact (taken.trans (State.keeps_arrive _ a)).trans (State.keeps_flushIo _)

/-- The return address goes to present memory. -/
theorem State.keeps_storeReturn {s t : State} {a : Addr} {v : Word32} (h : s.storeReturn a v = .ok t) : s.Keeps t := by
  obtain ⟨_, hp, hp1, rfl⟩ := State.storeReturn_ok.1 h
  refine s.ioTurn_turned.keeps.trans (.of_memory rfl (Memory.wf_putWord _ _ _) (fun hm => ?_) rfl rfl rfl rfl)
  rw [State.ioTurn_cfg] at hm ⊢
  exact Memory.within_putWord hm hp hp1

theorem State.storeReturn_pending {s t : State} {a : Addr} {v : Word32} (h : s.storeReturn a v = .ok t) :
    t.pending = s.pending := by
  obtain ⟨_, _, _, rfl⟩ := State.storeReturn_ok.1 h
  exact s.ioTurn_pending

/-- Entry to a level takes its request away, sets the hold-off to its bound and empties IR
(60_exceptions.md R470, R472). -/
theorem State.keeps_enterInterrupt {s t : State} {l : Nat} (h : s.enterInterrupt l = .ok t) : s.Keeps t := by
  obtain ⟨_, _, u, hu, rfl⟩ := State.enterInterrupt_ok.1 h
  have stored := State.keeps_storeReturn hu
  refine stored.trans ⟨rfl, fun hi => ?_⟩
  obtain ⟨canonical, placed, latched, _, _⟩ := (u.keeps_fewer_pending (~~~(1#16 <<< l))).inv hi
  rw [State.storeReturn_pending hu] at latched
  exact ⟨canonical, placed, latched, stored.cfg_eq ▸ Nat.le_refl _, nofun⟩

theorem State.keeps_conclude {s t : State} (h : s.conclude = .ok t) : s.Keeps t := by
  refine s.keeps_environment.trans ?_
  rcases State.recognise_ok.1 h with ⟨_, _, l, _, he⟩ | ⟨_, rfl⟩
  · exact (State.keeps_countDown _).trans (State.keeps_enterInterrupt he)
  · exact State.keeps_countDown _

theorem keeps_step {s t : State} (h : step s = .next t) : s.Keeps t := by
  rcases step_next.1 h with ⟨_, hc⟩ | ⟨_, i, s1, s2, hf, he, hc⟩
  · exact State.keeps_conclude hc
  · exact ((State.keeps_fetch hf).trans (exec_effect he).keeps).trans (State.keeps_conclude hc)

/-- Settles O9: fetch, instruction and conclusion each keep the invariant. -/
theorem invariantKept : Obligations.InvariantKept := by
  unfold Obligations.InvariantKept
  intro s t hs h
  exact ⟨(keeps_step h).inv hs, (keeps_step h).cfg_eq⟩

end Sys2Proof.Machine
end

section
/-! PROOFS. What every instruction leaves unchanged: status and MR, the index registers, the hidden latches and the lines
(10_state.md R28 to R40). Each is read off the elementary changes that an instruction is made of. -/

namespace Sys2Proof.Machine

/-! ### Stores and turns change memory and what goes with it -/

/-- `t` is `s` but for memory, what is noted of the halfword that IR holds, and the I/O unit's requests. -/
def State.MemoryOnly (s t : State) : Prop :=
  t = { s with mem := t.mem, irHeld := t.irHeld, ioDeferred := t.ioDeferred, steals := t.steals }

theorem State.Turned.memoryOnly {s t : State} (h : s.Turned t) : s.MemoryOnly t := h.frame

/-- A store's turn is the I/O unit's turn and a note of what the store covers. -/
theorem State.storeTurn_memoryOnly (s : State) (half : Bool) (a : Addr) : s.MemoryOnly (s.storeTurn half a) :=
  State.storeTurn_with rfl rfl rfl rfl rfl rfl half a

theorem Stores.memoryOnly {s t : State} {half : Bool} {a : Addr} (h : Stores (s.storeTurn half a) t) :
    s.MemoryOnly t := by
  have turn := s.storeTurn_memoryOnly half a
  unfold State.MemoryOnly at *
  rw [h.frame, turn]
  rfl

theorem State.store16_stores {s t : State} {a : Addr} {v : Half} (h : s.store16 a v = .ok t) :
    Stores (s.storeTurn true a) t :=
  State.write16_stores h

theorem State.store32_stores {s t : State} {a : Addr} {v : Word32} (h : s.store32 a v = .ok t) :
    Stores (s.storeTurn false a) t :=
  State.write32_stores h

/-! ### Registers, status and latches -/

/-- From `s` to `t` instruction `i` has kept what it does not name: the configuration, IR, the hold-off, the lines, the
arrivals, and each of the others unless it is an instruction that writes it. -/
structure Kept (i : Instr) (s t : State) : Prop where
  cfg_eq : t.cfg = s.cfg := by rfl
  ir_eq : t.ir = s.ir := by rfl
  holdoff_eq : t.holdoff = s.holdoff := by rfl
  switches_eq : t.switches = s.switches := by rfl
  testSignal_eq : t.testSignal = s.testSignal := by rfl
  arrivals_eq : t.arrivals = s.arrivals := by rfl
  status : StatusKept i s.sr t.sr := by exact StatusKept.refl
  mr_eq : (∀ x1 x2 d m m16, i ≠ .ldiL x1 x2 d m m16) → t.mr = s.mr := by exact fun _ => rfl
  inService_eq : (∀ x1 m7, i ≠ .rtaS x1 m7) → (∀ x1 x2 d m h m16, i ≠ .rtaL x1 x2 d m h m16) →
    t.inService = s.inService := by exact fun _ _ => rfl
  pending_eq : (∀ x1 x2 d m m16, i ≠ .ldiL x1 x2 d m m16) → isInputOutput i = false → t.pending = s.pending := by
    exact fun _ _ => rfl
  halted_eq : i ≠ .hlt → t.halted = s.halted := by exact fun _ => rfl
  busIn_eq : isInputOutput i = false → t.busIn = s.busIn := by exact fun _ => rfl
  ioLog_eq : isInputOutput i = false → t.ioLog = s.ioLog := by exact fun _ => rfl

theorem Kept.trans {i : Instr} {s t u : State} (h : Kept i s t) (g : Kept i t u) : Kept i s u where
  cfg_eq := g.cfg_eq.trans h.cfg_eq
  ir_eq := g.ir_eq.trans h.ir_eq
  holdoff_eq := g.holdoff_eq.trans h.holdoff_eq
  switches_eq := g.switches_eq.trans h.switches_eq
  testSignal_eq := g.testSignal_eq.trans h.testSignal_eq
  arrivals_eq := g.arrivals_eq.trans h.arrivals_eq
  status := fun n hn hw => (g.status n hn hw).trans (h.status n hn hw)
  mr_eq := fun hi => (g.mr_eq hi).trans (h.mr_eq hi)
  inService_eq := fun hs hl => (g.inService_eq hs hl).trans (h.inService_eq hs hl)
  pending_eq := fun hi ho => (g.pending_eq hi ho).trans (h.pending_eq hi ho)
  halted_eq := fun hi => (g.halted_eq hi).trans (h.halted_eq hi)
  busIn_eq := fun hi => (g.busIn_eq hi).trans (h.busIn_eq hi)
  ioLog_eq := fun hi => (g.ioLog_eq hi).trans (h.ioLog_eq hi)

theorem State.MemoryOnly.kept {i : Instr} {s t : State} (h : s.MemoryOnly t) : Kept i s t := by
  rw [h]
  exact {}

theorem State.panelServed_kept {i : Instr} {s : State} {dc : BitVec 6} (hi : isInputOutput i = true) :
    Kept i s (s.panelServed dc) := by
  unfold State.panelServed
  split
  · exact { pending_eq := fun _ ho => by simp [hi] at ho }
  · exact {}

/-- Whatever an instruction does keeps what it does not name. -/
theorem Effect.kept {i : Instr} {s t : State} (h : Effect i s t) : Kept i s t := by
  induction h with
  | turned h => exact h.memoryOnly.kept
  | store16 h => exact (State.store16_stores h).memoryOnly.kept
  | store32 h => exact (State.store32_stores h).memoryOnly.kept
  | registers h =>
    rw [h]
    exact {}
  | status h => exact { status := h }
  | index => exact {}
  | mask hi => exact { mr_eq := fun hn => absurd hi (hn _ _ _ _ _), pending_eq := fun hn => absurd hi (hn _ _ _ _ _) }
  | complete hi =>
    refine { inService_eq := fun hs hl => ?_ }
    rcases hi with ⟨_, _, hi⟩ | ⟨_, _, _, _, _, _, hi⟩
    · exact absurd hi (hs _ _)
    · exact absurd hi (hl _ _ _ _ _ _)
  | panel hi => exact State.panelServed_kept hi
  | transfer hi h =>
    rw [h]
    exact { busIn_eq := fun ho => by simp [hi] at ho, ioLog_eq := fun ho => by simp [hi] at ho }
  | halt hi => exact { halted_eq := fun hn => absurd hi hn }
  | trans _ _ ih ih' => exact ih.trans ih'

/-- Settles O12: status and MR are among what every instruction keeps. -/
theorem statusBitsWrittenOnlyByTheirInstructions : Obligations.StatusBitsWrittenOnlyByTheirInstructions := by
  unfold Obligations.StatusBitsWrittenOnlyByTheirInstructions
  intro i s t h
  exact ⟨(exec_effect h).kept.status, (exec_effect h).kept.mr_eq⟩

/-! ### Index registers -/

/-- The place of an index register depends on the group alone (10_state.md R28). -/
theorem State.xrPlace_congr {s t : State} (h0 : t.srBit 0 = s.srBit 0) (h1 : t.srBit 1 = s.srBit 1) (n : BitVec 4) :
    t.xrPlace n = s.xrPlace n := by
  rw [State.xrPlace, h0, h1, State.xrPlace]

/-- An instruction that writes an index register writes no status bit (10_state.md R30, R31). -/
theorem statusWritten_of_indexWritten {i : Instr} {n : BitVec 4} (h : indexWritten i = some n) :
    statusWritten i = [] := by
  unfold indexWritten at h
  split at h
  case h_9 => cases h
  all_goals rfl

/-- The group of an instruction that writes an index register stays selected. -/
theorem Kept.xrPlace_eq {i : Instr} {s t : State} {n : BitVec 4} (h : Kept i s t) (hi : indexWritten i = some n) :
    t.xrPlace n = s.xrPlace n := by
  have hw := statusWritten_of_indexWritten hi
  exact State.xrPlace_congr (h.status 0 (by omega) (by simp [hw])) (h.status 1 (by omega) (by simp [hw])) n

/-- The place of XR[n] in the file: group 2 SR0 + SR1, sixteen registers each (10_state.md R28). -/
theorem State.xrPlace_val (s : State) (n : BitVec 4) :
    (s.xrPlace n).val = 16 * (2 * (s.srBit 0).toNat + (s.srBit 1).toNat) + n.toNat := by
  have all : ∀ (b c : Bool) (n : BitVec 4),
      (BitVec.ofBool b ++ BitVec.ofBool c ++ n : BitVec 6).toNat = 16 * (2 * b.toNat + c.toNat) + n.toNat := by decide
  exact all _ _ n

theorem State.setXr_get_same (s : State) (n : BitVec 4) (v : Addr) : (s.setXr n v).xr n = v := by
  change (s.xrf.set (s.xrPlace n).val v (s.xrPlace n).isLt).get (s.xrPlace n) = v
  rw [Vector.get_eq_getElem, Vector.getElem_set_self]

theorem State.setXr_get_ne (s : State) (n : BitVec 4) (v : Addr) {p : Fin 64} (h : p ≠ s.xrPlace n) :
    (s.setXr n v).xrf.get p = s.xrf.get p := by
  rw [State.setXr_xrf, Vector.get_eq_getElem, Vector.get_eq_getElem, Vector.getElem_set_ne]
  exact fun e => h (Fin.ext e.symm)

/-- Settles O14: the place, and a vector's element after a write. -/
theorem indexRegisterFile : Obligations.IndexRegisterFile := by
  unfold Obligations.IndexRegisterFile
  intro s n v
  exact ⟨s.xrPlace_val n, rfl, s.setXr_get_same n v, fun _ => s.setXr_get_ne n v, rfl⟩

/-- Whatever an instruction does keeps every index register but the one it writes. -/
theorem Effect.xrf_get {i : Instr} {s t : State} {p : Fin 64} (h : Effect i s t)
    (hp : ∀ n, indexWritten i = some n → p ≠ s.xrPlace n) : t.xrf.get p = s.xrf.get p := by
  induction h with
  | turned h => rw [h.frame]
  | store16 h => rw [(State.store16_stores h).memoryOnly]
  | store32 h => rw [(State.store32_stores h).memoryOnly]
  | registers h => rw [h]
  | transfer _ h => rw [h]
  | status | mask | complete | halt => rfl
  | index hi => exact State.setXr_get_ne _ _ _ (hp _ hi)
  | panel =>
    unfold State.panelServed
    split <;> rfl
  | trans h _ ih ih' => exact (ih' fun n hi => (h.kept.xrPlace_eq hi).symm ▸ hp n hi).trans (ih hp)

/-- Settles O13: the one index register written is of the group selected before. -/
theorem indexRegistersWrittenOnlyByTheirInstructions : Obligations.IndexRegistersWrittenOnlyByTheirInstructions := by
  unfold Obligations.IndexRegistersWrittenOnlyByTheirInstructions
  intro i s t p h hp
  exact (exec_effect h).xrf_get hp

/-! ### The second instruction in IR -/

/-- IR holds the same halfword, and forgets nothing of what may run there (20_memory.md R82; log 14). -/
def State.HeldGrows (s t : State) : Prop := ∃ l, t.irHeld = s.irHeld.map fun h => { h with past := h.past ++ l }

theorem State.HeldGrows.of_eq {s t : State} (h : t.irHeld = s.irHeld) : s.HeldGrows t :=
  ⟨[], by rw [h]; cases s.irHeld <;> simp⟩

theorem State.HeldGrows.trans {s t u : State} (h : s.HeldGrows t) (g : t.HeldGrows u) : s.HeldGrows u := by
  obtain ⟨l, hl⟩ := h
  obtain ⟨k, hk⟩ := g
  refine ⟨l ++ k, ?_⟩
  rw [hk, hl]
  cases s.irHeld <;> simp

theorem State.noteStore_heldGrows (s : State) (half : Bool) (a : Addr) : s.HeldGrows (s.noteStore half a) := by
  cases hs : s.irHeld with
  | none => exact .of_eq (by simp [State.noteStore, hs])
  | some h =>
    by_cases hc : h.addr = if half then a else a + 1
    · exact ⟨[s.mem.half h.addr], by simp only [State.noteStore, State.setHeld_irHeld, hs, Option.map_some, if_pos hc,
        Held.remember]⟩
    · exact .of_eq (by simp only [State.noteStore, State.setHeld_irHeld, hs, Option.map_some, if_neg hc])

theorem Stores.heldGrows {s t : State} {half : Bool} {a : Addr} (h : Stores (s.storeTurn half a) t) :
    s.HeldGrows t := by
  have turn : s.HeldGrows s.ioTurn := s.ioTurn_turned.held
  refine (turn.trans (s.ioTurn.noteStore_heldGrows half a)).trans (.of_eq ?_)
  rw [h.frame]
  rfl

/-- Whatever an instruction does keeps the halfword that IR holds. -/
theorem Effect.heldGrows {i : Instr} {s t : State} (h : Effect i s t) : s.HeldGrows t := by
  induction h with
  | turned h => exact h.held
  | store16 h => exact (State.store16_stores h).heldGrows
  | store32 h => exact (State.store32_stores h).heldGrows
  | registers h => exact .of_eq (by rw [h])
  | transfer _ h => exact .of_eq (by rw [h])
  | status | index | mask | complete | halt => exact .of_eq rfl
  | panel =>
    unfold State.panelServed
    split <;> exact .of_eq rfl
  | trans _ _ ih ih' => exact ih.trans ih'

/-! ### The I/O unit's requests -/

/-- The oldest of the I/O unit's requests are made, none while SR14 = 0 (20_memory.md R80). -/
def State.Drains (s t : State) : Prop := ∃ ws, s.ioWrites = ws ++ t.ioWrites ∧ (s.srBit 14 = false → ws = [])

theorem State.Drains.of_eq {s t : State} (h : t.ioWrites = s.ioWrites) : s.Drains t := ⟨[], h.symm, fun _ => rfl⟩

theorem State.Drains.trans {s t u : State} (h : s.Drains t) (hb : t.srBit 14 = s.srBit 14) (g : t.Drains u) :
    s.Drains u := by
  obtain ⟨ws, hw, ho⟩ := h
  obtain ⟨vs, gw, go⟩ := g
  refine ⟨ws ++ vs, by rw [hw, gw, List.append_assoc], fun hs => ?_⟩
  rw [ho hs, go (hb.trans hs), List.append_nil]

theorem State.Turned.drains {s t : State} (h : s.Turned t) : s.Drains t := by
  obtain ⟨ws, hw, ho, _, _⟩ := h.order
  exact ⟨ws, hw, ho⟩

theorem Stores.drains {s t : State} {half : Bool} {a : Addr} (h : Stores (s.storeTurn half a) t) : s.Drains t := by
  obtain ⟨ws, hw, ho⟩ := s.ioTurn_turned.drains
  refine ⟨ws, ?_, ho⟩
  rw [hw, h.frame]
  rfl

/-- An instruction that does not write SR14 has the requests made oldest first. -/
theorem Effect.drains {i : Instr} {s t : State} (h : Effect i s t) (hi : 14 ∉ statusWritten i) : s.Drains t := by
  induction h with
  | turned h => exact h.drains
  | store16 h => exact (State.store16_stores h).drains
  | store32 h => exact (State.store32_stores h).drains
  | registers h => exact .of_eq (by rw [h]; rfl)
  | transfer _ h => exact .of_eq (by rw [h]; rfl)
  | status | index | mask | complete | halt => exact .of_eq rfl
  | panel =>
    unfold State.panelServed
    split <;> exact .of_eq rfl
  | trans h _ ih ih' => exact ih.trans (h.kept.status 14 (by omega) hi) ih'

/-- LDS writes SR after all its accesses. -/
theorem execLdsL_drains {x1 : BitVec 3} {x2 : BitVec 4} {d m : Bool} {m16 : BitVec 16} {s t : State}
    (h : execLdsL x1 x2 d m m16 s = .next t) : s.Drains t := by
  obtain ⟨⟨r, u⟩, hr, hk⟩ := bind_ok.1 (finish_next.1 h)
  have turned : s.Turned u := State.longRef_reads hr
  dsimp only at hk
  split at hk
  · cases hk
    exact turned.drains
  · obtain ⟨⟨w, u1⟩, hl, hk⟩ := bind_ok.1 hk
    cases hk
    exact (turned.trans (State.load32_turned hl)).drains

/-- Every instruction has the requests made oldest first, by the SR14 before it. -/
theorem exec_drains {i : Instr} {s t : State} (h : exec i s = .next t) : s.Drains t := by
  by_cases hi : 14 ∈ statusWritten i
  · cases i
    case emi | dmi =>
      cases h
      exact .of_eq rfl
    case ldsL => exact execLdsL_drains h
    all_goals simp [statusWritten] at hi
  · exact (exec_effect h).drains hi

/-- Settles O15: what every instruction keeps, the requests of the I/O unit, and the halfword that IR holds. -/
theorem latchesWrittenOnlyByTheirInstructions : Obligations.LatchesWrittenOnlyByTheirInstructions := by
  unfold Obligations.LatchesWrittenOnlyByTheirInstructions
  intro i s t h
  have kept := (exec_effect h).kept
  exact ⟨kept.cfg_eq, kept.ir_eq, kept.holdoff_eq, kept.switches_eq, kept.testSignal_eq, kept.arrivals_eq,
    exec_drains h, (exec_effect h).heldGrows, kept.inService_eq, kept.pending_eq, kept.halted_eq,
    fun ho => ⟨kept.busIn_eq ho, kept.ioLog_eq ho⟩⟩

end Sys2Proof.Machine
end

section
/-! PROOFS. The stores of an index register, status and mask, the loads of status and mask, and the round trip through
memory (10_state.md R33, R38; 40_load_store.md R167, R168, R174 to R176). -/

namespace Sys2Proof.Machine

/-! ### The layouts of status and mask -/

section
variable (sr mr : BitVec 16) (free : Word32)

theorem srWord_high : (srWord sr free).extractLsb' 23 8 = sr.extractLsb' 8 8 := by
  rw [srWord, BitVec.extractLsb'_append_eq_of_le (by omega), BitVec.extractLsb'_append_eq_of_le (by omega),
    BitVec.extractLsb'_append_eq_of_le (by omega)]
  exact BitVec.extractLsb'_append_eq_right

theorem srWord_gap : (srWord sr free).extractLsb' 15 8 = 0#8 := by
  rw [srWord, BitVec.extractLsb'_append_eq_of_le (by omega), BitVec.extractLsb'_append_eq_of_le (by omega)]
  exact BitVec.extractLsb'_append_eq_right

theorem srWord_low : (srWord sr free).extractLsb' 7 8 = sr.extractLsb' 0 8 := by
  rw [srWord, BitVec.extractLsb'_append_eq_of_le (by omega)]
  exact BitVec.extractLsb'_append_eq_right

/-- What STS stores LDS gives back (10_state.md R33). -/
theorem srOfWord_srWord : srHighOfWord (srWord sr free) ++ srLowOfWord (srWord sr free) = sr := by
  rw [srHighOfWord, srLowOfWord, srWord_high, srWord_low]
  exact halves_append sr

/-- What STI stores LDI gives back (10_state.md R38). -/
theorem mrOfWord_mrWord : mrOfWord (mrWord mr free) = mr := by
  rw [mrOfWord, mrWord, BitVec.extractLsb'_append_eq_of_le (by omega)]
  exact BitVec.extractLsb'_append_eq_right

end

/-- SRn for n < 8 is word bit 24 - n, for n in 8..15 word bit 16 - n, counted from the left (R33). -/
theorem srOfWord_getLsbD (high : BitVec 8) (w : Word32) {n : Nat} (hn : n < 8) :
    (high ++ srLowOfWord w).getLsbD n = w.getLsbD (31 - (24 - n)) ∧
      (high ++ srLowOfWord w).getLsbD (n + 8) = high.getLsbD n := by
  rw [BitVec.getLsbD_append, BitVec.getLsbD_append, if_pos hn, if_neg (by omega), srLowOfWord,
    BitVec.getLsbD_extractLsb', show 31 - (24 - n) = 7 + n by omega]
  simp [hn]

theorem srHighOfWord_getLsbD (w : Word32) {n : Nat} (hn : n < 8) :
    (srHighOfWord w).getLsbD n = w.getLsbD (31 - (16 - (n + 8))) := by
  rw [srHighOfWord, BitVec.getLsbD_extractLsb', show 31 - (16 - (n + 8)) = 23 + n by omega]
  simp [hn]

/-- MRn is word bit 16 - n, counted from the left (R38). -/
theorem mrOfWord_getLsbD (w : Word32) {n : Nat} (hn : n < 16) :
    (mrOfWord w).getLsbD n = w.getLsbD (31 - (16 - n)) := by
  rw [mrOfWord, BitVec.getLsbD_extractLsb', show 31 - (16 - n) = 15 + n by omega]
  simp [hn]

/-- An immediate mask is left adjusted (40_load_store.md R168). -/
theorem mrOfWord_immediate (a : Addr) :
    mrOfWord (a.extractLsb' 0 16 ++ 0#16) = (a.extractLsb' 0 15 ++ 0#1 : BitVec 16) := by
  apply BitVec.eq_of_getLsbD_eq
  intro n hn
  rw [mrOfWord, BitVec.getLsbD_extractLsb', BitVec.getLsbD_append, BitVec.getLsbD_append]
  by_cases h0 : n = 0
  · simp [h0]
  · simp [hn, show ¬15 + n < 16 by omega, show ¬n < 1 by omega, show 15 + n - 16 = n - 1 by omega,
      show n - 1 < 16 by omega, show n - 1 < 15 by omega]

/-- Whether a level is allowed (60_exceptions.md R466; log 33). -/
theorem State.allowed_getLsbD (s : State) {n : Nat} (hn : n < 16) :
    s.allowed.getLsbD n = if s.cfg.mrOneAllows then s.mr.getLsbD n else !s.mr.getLsbD n := by
  unfold State.allowed
  split
  · rfl
  · simp [hn]

/-! ### What the special stores leave -/

/-- The I/O unit's turn does not look at OAR. -/
theorem State.storeTurn_setOar (s : State) (half : Bool) (a b : Addr) :
    (s.setOar b).storeTurn half a = (s.storeTurn half a).setOar b := by
  rw [State.storeTurn_with (s := s) (t := s.setOar b) rfl rfl rfl rfl rfl rfl]
  conv => rhs; rw [s.storeTurn_memoryOnly half a]
  rfl

theorem State.storeTurn_pc (s : State) (half : Bool) (a : Addr) : (s.storeTurn half a).pc = s.pc := by
  rw [s.storeTurn_memoryOnly half a]

theorem State.Turned.xr_eq {s t : State} (h : s.Turned t) (n : BitVec 4) : t.xr n = s.xr n := by
  rw [h.frame]
  rfl

/-- A store of a fullword that holds free bits completes where the word may be written. -/
theorem storeWord_completes {s : State} {r : Ref} {ref : RefAccess} (w : Word32) (len : Addr) (hr : ref = .ok (r, s))
    (hi : r.imm = false) (hm : s.mem.wf = true) (hw : s.writable32 r.addr = true) :
    ∃ m' n, storeWord w ref len = .next { s.storeTurn false r.addr with
        mem := m', oar := r.addr, pc := s.pc + len, draws := n } ∧
      storedWord (s.storeTurn false r.addr).mem m' r.addr w := by
  let m' := s.ioTurn.mem.putWord r.addr w
  have stores : (s.setOar r.addr).store32 r.addr w = .ok (((s.storeTurn false r.addr).setOar r.addr).setMem m') := by
    rw [State.store32_of_writable (s := s.setOar r.addr) w hw, ← State.storeTurn_mem (s.setOar r.addr) false r.addr,
      State.storeTurn_setOar]
    rfl
  refine ⟨m', (s.storeTurn false r.addr).draws + 1, storeWord_next.2 ⟨r, s, _, hr, hi, stores, ?_⟩,
    storedWord_putWord _ _ _ ((State.ioTurn_mem s).1 hm) (State.isOdd_of_writable32 hw)⟩
  rw [← s.storeTurn_pc false r.addr]
  rfl

/-- Settles O26: each is a store of a word, made of what the registers hold before the turn of the store. -/
theorem specialStoresComplete : Obligations.SpecialStoresComplete := by
  unfold Obligations.SpecialStoresComplete
  intro s r hm hi hw
  dsimp only
  refine ⟨fun x1 m7 hr => ?_, fun t x1 x2 i m h m16 hr hh => ?_, fun t x1 x2 i m m16 hr => ⟨?_, ?_⟩⟩
  · obtain ⟨m', n, hx, hs⟩ := storeWord_completes (s.indexWord (x1.zeroExtend 4)) 1 (congrArg s.direct hr) hi hm hw
    exact ⟨m', _, n, hx, hs, BitVec.extractLsb'_append_eq_right⟩
  · obtain ⟨m', n, hx, hs⟩ :=
      storeWord_completes (t.indexWord x2) 2 (noImmediateHalf_ok.2 ⟨hr, hi, hh⟩) hi hm hw
    rw [State.Turned.xr_eq (State.longRef_reads hr)]
    exact ⟨m', _, n, hx, hs, BitVec.extractLsb'_append_eq_right⟩
  · obtain ⟨m', n, hx, hs⟩ := storeWord_completes (mrWord t.mr t.drawWord) 2 hr hi hm hw
    have mr_eq : s.mr = t.mr := by rw [(State.longRef_reads hr).frame]
    exact ⟨m', _, n, hx, hs, mr_eq ▸ mrOfWord_mrWord _ _⟩
  · obtain ⟨m', n, hx, hs⟩ := storeWord_completes (srWord t.sr t.drawWord) 2 hr hi hm hw
    have sr_eq : s.sr = t.sr := by rw [(State.longRef_reads hr).frame]
    rw [sr_eq]
    exact ⟨m', _, n, hx, hs, srWord_high _ _, srWord_gap _ _, srWord_low _ _⟩

/-! ### What the loads of status and mask do -/

section
variable {s t : State} {r : Ref} {x1 : BitVec 3} {x2 : BitVec 4} {i m : Bool} {m16 : BitVec 16}
  (hr : t.longRef false (t.longIndex x1 x2) i m true m16 = .ok (r, s))
include hr

theorem execLdsL_immediate (hi : r.imm = true) :
    execLdsL x1 x2 i m m16 t = .next (((s.setOar r.addr).setSr
      (s.sr.extractLsb' 8 8 ++ srLowOfWord ((r.addr.extractLsb' 0 16).zeroExtend 32))).advance 2) := by
  unfold execLdsL
  rw [bind_of_ok _ hr]
  simp only [hi, if_true]
  rfl

theorem execLdsL_memory {u : State} {w : Word32} (hi : r.imm = false) (hl : s.load32 r.addr = .ok (w, u)) :
    execLdsL x1 x2 i m m16 t = .next (((u.setOar r.addr).setSr (srHighOfWord w ++ srLowOfWord w)).advance 2) := by
  unfold execLdsL
  rw [bind_of_ok _ hr]
  simp only [hi, Bool.false_eq_true, if_false]
  rw [bind_of_ok _ hl]
  rfl

theorem execLdiL_operand {u : State} {w : Word32} (hw : s.maskOperand r = .ok (w, u)) :
    execLdiL x1 x2 i m m16 t = .next (((u.setOar r.addr).loadMask (mrOfWord w)).advance 2) := by
  unfold execLdiL
  rw [bind_of_ok _ hr]
  dsimp only
  rw [bind_of_ok _ hw]
  rfl

end

theorem State.maskOperand_immediate {s : State} {r : Ref} (hi : r.imm = true) :
    s.maskOperand r = .ok (r.addr.extractLsb' 0 16 ++ 0#16, s) :=
  if_pos hi

theorem State.maskOperand_memory {s : State} {r : Ref} (hi : r.imm = false) : s.maskOperand r = s.load32 r.addr :=
  if_neg (by simp [hi])

/-- A new mask keeps the requests of the levels it allows (60_exceptions.md R466). -/
theorem State.loadMask_pending_getLsbD (s : State) (v : BitVec 16) {n : Nat} (hn : n < 16) :
    (s.loadMask v).pending.getLsbD n =
      (s.pending.getLsbD n && (if s.cfg.mrOneAllows then v.getLsbD n else !v.getLsbD n)) := by
  change (s.pending &&& (s.setMr v).allowed).getLsbD n = _
  rw [BitVec.getLsbD_and, State.allowed_getLsbD _ hn]
  rfl

/-- Settles O27: the immediate and the memory form of each load, then its bits. -/
theorem statusAndMaskLoadsComplete : Obligations.StatusAndMaskLoadsComplete := by
  unfold Obligations.StatusAndMaskLoadsComplete
  intro s t r x1 x2 i m m16 hr hread
  cases hi : r.imm with
  | true =>
    simp only [if_true]
    refine ⟨⟨_, execLdsL_immediate hr hi, nofun, fun _ n hn => ?_⟩,
      ⟨_, _, execLdiL_operand hr (State.maskOperand_immediate hi), nofun, fun _ => mrOfWord_immediate r.addr,
        fun n hn => State.loadMask_pending_getLsbD _ _ hn⟩⟩
    obtain ⟨low, high⟩ := srOfWord_getLsbD (s.sr.extractLsb' 8 8) ((r.addr.extractLsb' 0 16).zeroExtend 32) hn
    refine ⟨low.trans ?_, high.trans ?_⟩
    · simp [show 31 - (24 - n) < 32 by omega, show 31 - (24 - n) < 16 by omega]
    · simp [hn, Nat.add_comm]
  | false =>
    have hl := State.load32_of_readable (hread hi)
    have hpc : s.pc + 2 = s.ioTurn.pc + 2 := by rw [State.ioTurn_pc]
    have hp : s.pending = s.ioTurn.pending := by rw [State.ioTurn_pending]
    have hc : s.cfg = s.ioTurn.cfg := by rw [State.ioTurn_cfg]
    simp only [Bool.false_eq_true, if_false, hpc, hp, hc]
    generalize s.ioTurn = u at hl ⊢
    refine ⟨⟨_, execLdsL_memory hr hi hl, fun _ n hn => ?_, nofun⟩,
      ⟨_, _, execLdiL_operand hr ((State.maskOperand_memory hi).trans hl), fun _ n hn => mrOfWord_getLsbD _ hn, nofun,
        fun n hn => State.loadMask_pending_getLsbD _ _ hn⟩⟩
    obtain ⟨low, high⟩ := srOfWord_getLsbD (srHighOfWord (u.mem.word r.addr)) (u.mem.word r.addr) hn
    exact ⟨low, high.trans (srHighOfWord_getLsbD _ hn)⟩

/-! ### The round trip through memory -/

/-- Writes of the I/O unit at other addresses leave a fullword alone. -/
theorem State.ioWrites_word {ws : List IoWrite} {a : Addr} (s : State) (ha : isOdd a = false)
    (h : ∀ w ∈ ws, w.addr ≠ a) : (ws.foldl State.ioWrite s).mem.word a = s.mem.word a := by
  induction ws generalizing s with
  | nil => rfl
  | cons w ws ih =>
    rw [List.foldl_cons, ih _ fun v hv => h v (List.mem_cons_of_mem _ hv)]
    rcases State.ioWrite_cases s w with hsame | ⟨hw, _, _, hput⟩
    · rw [hsame]
    · have apart : a ≠ w.addr := (h w List.mem_cons_self).symm
      have odd_ne_even : ∀ {b c : Addr}, isOdd b = false → isOdd c = false → b + 1 ≠ c :=
        fun hb hc e => Bool.false_ne_true (hc.symm.trans (e ▸ isOdd_add_one hb))
      rw [hput, Memory.word, Memory.word, Memory.half_putWord_ne _ _ apart (odd_ne_even hw ha).symm,
        Memory.half_putWord_ne _ _ (odd_ne_even ha hw) fun e => apart (add_right_cancel e)]

/-- A fullword that the I/O unit does not ask to write is read back after its store, whatever SR and MR are by then. -/
theorem State.load32_of_stored {s s1 t : State} {a : Addr} {w : Word32} (hwf : s.mem.wf = true)
    (hio : ∀ x ∈ s.ioWrites, x.addr ≠ a) (hs : s.store32 a w = .ok s1) (hc : t.cfg = s1.cfg) (hm : t.mem = s1.mem)
    (hw : t.ioWrites = s1.ioWrites) : t.load32 a = .ok (w, t.ioTurn) := by
  obtain ⟨ha, hp, hp1, _, _, rfl⟩ := State.write32_ok.1 hs
  have hcs : t.cfg = s.cfg := hc.trans (s.storeTurn_cfg false a)
  have readable : t.readable32 a = true := by
    rw [State.storeTurn_isPresent] at hp hp1
    rw [State.readable32, State.isPresent, State.isPresent, hcs, ha]
    exact Bool.and_eq_true_iff.2 ⟨Bool.and_eq_true_iff.2 ⟨rfl, hp⟩, hp1⟩
  obtain ⟨ws, horder, _, hmem, _⟩ := t.ioTurn_turned.order
  obtain ⟨vs, hdrains, _⟩ := (State.store32_stores hs).drains
  have apart : ∀ x ∈ ws, x.addr ≠ a := fun x hx => hio x (by
    rw [hdrains, ← hw, horder]
    exact List.mem_append_right _ (List.mem_append_left _ hx))
  rw [State.load32_of_readable readable, hmem, State.ioWrites_word t ha apart, hm]
  have stored := storedWord_putWord s.ioTurn.mem a w ((State.ioTurn_mem s).1 hwf) ha
  exact congrArg (fun v => Except.ok (v, t.ioTurn)) stored.1

/-- An address without index or indirection is the instruction's own (30_encoding.md R110, R114). -/
theorem State.longRef_plain (s : State) (desig h : Bool) (m16 : BitVec 16) :
    s.longRef desig (s.longIndex 0 0) false false h m16 = .ok (⟨m16.zeroExtend 18, false, h⟩, s) := by
  rw [State.longRef_direct, show s.longIndex 0 0 = 0#18 from rfl, BitVec.add_zero]

/-- What a direct store of a word with free bits leaves is read back by a direct load. -/
theorem load32_of_storeWord {s t t' : State} {w : Word32} {m16 : BitVec 16} (hwf : s.mem.wf = true)
    (hio : ∀ x ∈ s.ioWrites, x.addr ≠ m16.zeroExtend 18)
    (h : storeWord w (s.longRef false (s.longIndex 0 0) false false true m16) 2 = .next t)
    (hc : t'.cfg = t.cfg) (hm : t'.mem = t.mem) (hw : t'.ioWrites = t.ioWrites) :
    t'.load32 (m16.zeroExtend 18) = .ok (w, t'.ioTurn) := by
  obtain ⟨r, u, u1, hr, _, hs, rfl⟩ := storeWord_next.1 h
  rw [State.longRef_plain] at hr
  cases hr
  exact State.load32_of_stored (s := s.setOar (m16.zeroExtend 18)) hwf hio hs hc hm hw

/-- Settles O28: the word stored is read back, and its fields are the register's. -/
theorem statusAndMaskRoundTrip : Obligations.StatusAndMaskRoundTrip := by
  unfold Obligations.StatusAndMaskRoundTrip
  intro s t m16 hwf hio
  refine ⟨fun h v => ?_, fun h v => ?_⟩
  · have hl := load32_of_storeWord (t' := { t with sr := v }) hwf hio h rfl rfl rfl
    exact ⟨_, execLdsL_memory (State.longRef_plain _ _ _ _) rfl hl, srOfWord_srWord _ _⟩
  · have hl := load32_of_storeWord (t' := { t with mr := v }) hwf hio h rfl rfl rfl
    exact ⟨_, execLdiL_operand (State.longRef_plain _ _ _ _) ((State.maskOperand_memory rfl).trans hl),
      mrOfWord_mrWord _ _⟩

end Sys2Proof.Machine
end

section
/-! PROOFS. Addition and subtraction in one register, and in the 64 bit register by two instructions (10_state.md R34;
41_fixed_arith.md R201 to R216, R227). -/

namespace Sys2Proof.Machine

/-! ### Sums, differences and flags -/

theorem addU_eq (a x : Word32) (c : Bool) : addU a x c = a + x + if c then 1#32 else 0#32 := by
  rw [addU, BitVec.ofNat_add, BitVec.ofNat_add, BitVec.ofNat_toNat, BitVec.ofNat_toNat, BitVec.setWidth_eq,
    BitVec.setWidth_eq]
  cases c <;> rfl

theorem subU_eq (a x : Word32) (c : Bool) : subU a x c = a - x - if c then 1#32 else 0#32 := by
  apply BitVec.eq_of_toNat_eq
  have ha := a.isLt
  have hx := x.isLt
  rw [subU, BitVec.toNat_ofInt, BitVec.toNat_sub, BitVec.toNat_sub]
  cases c
  · simp only [Bool.toNat_false, Bool.false_eq_true, if_false, BitVec.toNat_ofNat]
    omega
  · simp only [Bool.toNat_true, if_true, BitVec.toNat_ofNat]
    omega

theorem withCarry_cleared (sr : BitVec 16) : withCarry sr false false = cleared sr := by
  rw [withCarry, withBit_false, withBit_false, BitVec.and_assoc]
  rfl

theorem withCarry_recorded (sr : BitVec 16) (c : Bool) : withCarry sr c true = recorded sr c := by
  apply BitVec.eq_of_getLsbD_eq
  intro n hn
  cases c <;> interval_cases n <;> simp [withCarry, withBit, recorded]

theorem aduOp_eq (s : State) (v : Word32) : aduOp s v = (s.regA + v + s.carryIn, cleared s.sr) := by
  rw [aduOp, addU_eq, withCarry_cleared]
  rfl

theorem sbuOp_eq (s : State) (v : Word32) : sbuOp s v = (s.regA - v - s.carryIn, cleared s.sr) := by
  rw [sbuOp, subU_eq, withCarry_cleared]
  rfl

theorem adlOp_eq (s : State) (v : Word32) : adlOp s v = (s.regB + v, recorded s.sr (carryL s.regB v)) := by
  rw [adlOp, addU_eq, withCarry_recorded, if_neg Bool.false_ne_true, BitVec.add_zero]

theorem sblOp_eq (s : State) (v : Word32) : sblOp s v = (s.regB - v, recorded s.sr (borrowL s.regB v)) := by
  rw [sblOp, subU_eq, withCarry_recorded, if_neg Bool.false_ne_true, BitVec.sub_zero]

/-! ### Every form, short, long and halfword -/

section
variable {s u : State} {r : Ref} {v : Word32} {ref : RefAccess} {len : Addr} (hr : ref = .ok (r, s))
  (hv : s.operand r = .ok (v, u))
include hr hv

theorem aluRegister_completes {set : State → Word32 → State} {op : AluOp} :
    aluRegister set op ref len = .next (((set (u.setOar r.addr) (op u v).1).setSr (op u v).2).advance len) :=
  aluRegister_next.2 ⟨r, s, v, u, hr, hv, rfl⟩

theorem adu_completes : aluRegister State.setA aduOp ref len = .next { u with
    regA := s.regA + v + s.carryIn, sr := cleared s.sr, oar := r.addr, pc := s.pc + len } := by
  rw [aluRegister_completes hr hv, aduOp_eq, (State.operand_turned hv).frame]
  rfl

theorem sbu_completes : aluRegister State.setA sbuOp ref len = .next { u with
    regA := s.regA - v - s.carryIn, sr := cleared s.sr, oar := r.addr, pc := s.pc + len } := by
  rw [aluRegister_completes hr hv, sbuOp_eq, (State.operand_turned hv).frame]
  rfl

theorem adl_completes : aluRegister State.setB adlOp ref len = .next { u with
    regB := s.regB + v, sr := recorded s.sr (carryL s.regB v), oar := r.addr, pc := s.pc + len } := by
  rw [aluRegister_completes hr hv, adlOp_eq, (State.operand_turned hv).frame]
  rfl

theorem sbl_completes : aluRegister State.setB sblOp ref len = .next { u with
    regB := s.regB - v, sr := recorded s.sr (borrowL s.regB v), oar := r.addr, pc := s.pc + len } := by
  rw [aluRegister_completes hr hv, sblOp_eq, (State.operand_turned hv).frame]
  rfl

end

/-- Settles O29: the forms differ in their reference alone. -/
theorem addSubtract : Obligations.AddSubtract := by
  unfold Obligations.AddSubtract
  intro s u r v hv
  refine ⟨fun x1 m7 hr => ?_, fun t x1 x2 i m m16 hr => ?_, fun t x1 x2 i m m16 hr => ?_⟩
  · have direct : s.direct (s.shortRef x1 m7) = .ok (r, s) := congrArg s.direct hr
    exact ⟨adu_completes direct hv, sbu_completes direct hv, adl_completes direct hv, sbl_completes direct hv⟩
  · exact ⟨adu_completes hr hv, sbu_completes hr hv, adl_completes hr hv, sbl_completes hr hv⟩
  · exact ⟨adu_completes hr hv, sbu_completes hr hv, adl_completes hr hv, sbl_completes hr hv⟩

/-! ### Two instructions on the 64 bit register -/

theorem toNat_words (a b : Word32) : (a ++ b : BitVec 64).toNat = a.toNat * 2 ^ 32 + b.toNat := by
  rw [BitVec.toNat_append, ← Nat.shiftLeft_add_eq_or_of_lt b.isLt, Nat.shiftLeft_eq]

/-- The carry out of the lower words into the upper makes one sum of 64 bits (R34, R227). -/
theorem words_add (a b x y : Word32) :
    (a ++ b : BitVec 64) + (x ++ y) = (a + x + if carryL b y then 1#32 else 0#32) ++ (b + y) := by
  have := a.isLt; have := b.isLt; have := x.isLt; have := y.isLt
  apply BitVec.eq_of_toNat_eq
  simp only [carryL, decide_eq_true_eq]
  split <;> simp only [BitVec.toNat_add, toNat_words, BitVec.toNat_ofNat] <;> omega

/-- The borrow into the lower words from the upper makes one difference of 64 bits (R34, R227). -/
theorem words_sub (a b x y : Word32) :
    (a ++ b : BitVec 64) - (x ++ y) = (a - x - if borrowL b y then 1#32 else 0#32) ++ (b - y) := by
  have := a.isLt; have := b.isLt; have := x.isLt; have := y.isLt
  apply BitVec.eq_of_toNat_eq
  simp only [borrowL, decide_eq_true_eq]
  split <;> simp only [BitVec.toNat_sub, toNat_words, BitVec.toNat_ofNat] <;> omega

/-- What ADL or SBL records is what ADU or SBU takes (R34). -/
theorem State.carryIn_recorded {s : State} {sr : BitVec 16} {c : Bool} (h : s.sr = recorded sr c) :
    s.carryIn = if c then 1#32 else 0#32 := by
  rw [State.carryIn, State.srBit, State.srBit, h]
  cases c <;> simp [recorded]

theorem State.srBit_cleared {s : State} {sr : BitVec 16} (h : s.sr = cleared sr) :
    s.srBit 12 = false ∧ s.srBit 13 = false := by
  rw [State.srBit, State.srBit, h]
  simp [cleared]

/-- The register and the computation of an add or subtract instruction (41_fixed_arith.md R203, R207, R211, R215). -/
def addSubtractOf (i : Instr) : (State → Word32 → State) × AluOp :=
  if isAdl i then (State.setB, adlOp) else if isSbl i then (State.setB, sblOp)
  else if isAdu i then (State.setA, aduOp) else (State.setA, sbuOp)

theorem addSubtractOf_adl {i : Instr} (h : isAdl i = true) : addSubtractOf i = (State.setB, adlOp) := if_pos h

theorem addSubtractOf_sbl {i : Instr} (h : isSbl i = true) : addSubtractOf i = (State.setB, sblOp) := by
  unfold isSbl at h
  split at h
  case h_4 => cases h
  all_goals rfl

theorem addSubtractOf_adu {i : Instr} (h : isAdu i = true) : addSubtractOf i = (State.setA, aduOp) := by
  unfold isAdu at h
  split at h
  case h_4 => cases h
  all_goals rfl

theorem addSubtractOf_sbu {i : Instr} (h : isSbu i = true) : addSubtractOf i = (State.setA, sbuOp) := by
  unfold isSbu at h
  split at h
  case h_4 => cases h
  all_goals rfl

/-- An add or subtract instruction is its computation on the operand that it reads. -/
theorem exec_of_readsOperand {s : State} {i : Instr} {v : Word32} (h : s.readsOperand i v) :
    ∃ ref len r t u, s.Turned t ∧ ref = .ok (r, t) ∧ t.operand r = .ok (v, u) ∧
      exec i s = aluRegister (addSubtractOf i).1 (addSubtractOf i).2 ref len := by
  unfold State.readsOperand at h
  split at h
  case h_1 | h_2 | h_3 | h_4 =>
    obtain ⟨u, hu⟩ := h
    exact ⟨_, 1, _, s, u, .refl s, rfl, hu, rfl⟩
  case h_13 => cases h
  all_goals
    obtain ⟨r, t, u, hr, hu⟩ := h
    exact ⟨_, 2, r, t, u, State.longRef_reads hr, hr, hu, rfl⟩

section
variable {i : Instr} {s t : State} {v : Word32} (hv : s.readsOperand i v) (h : exec i s = .next t)
include hv h

theorem addSubtract_next {set : State → Word32 → State} {op : AluOp} (hop : addSubtractOf i = (set, op)) :
    ∃ u a len, s.Turned u ∧ t = ((set (u.setOar a) (op u v).1).setSr (op u v).2).advance len := by
  obtain ⟨ref, len, r, w, u, turned, hr, hu, hx⟩ := exec_of_readsOperand hv
  rw [hx, hop, aluRegister_completes hr hu] at h
  cases h
  exact ⟨u, r.addr, len, turned.trans (State.operand_turned hu), rfl⟩

theorem adl_next (hi : isAdl i = true) :
    t.regA = s.regA ∧ t.regB = s.regB + v ∧ t.sr = recorded s.sr (carryL s.regB v) := by
  obtain ⟨u, a, len, turned, rfl⟩ := addSubtract_next hv h (addSubtractOf_adl hi)
  rw [adlOp_eq, turned.frame]
  exact ⟨rfl, rfl, rfl⟩

theorem sbl_next (hi : isSbl i = true) :
    t.regA = s.regA ∧ t.regB = s.regB - v ∧ t.sr = recorded s.sr (borrowL s.regB v) := by
  obtain ⟨u, a, len, turned, rfl⟩ := addSubtract_next hv h (addSubtractOf_sbl hi)
  rw [sblOp_eq, turned.frame]
  exact ⟨rfl, rfl, rfl⟩

theorem adu_next (hi : isAdu i = true) :
    t.regA = s.regA + v + s.carryIn ∧ t.regB = s.regB ∧ t.sr = cleared s.sr := by
  obtain ⟨u, a, len, turned, rfl⟩ := addSubtract_next hv h (addSubtractOf_adu hi)
  rw [aduOp_eq, turned.frame]
  exact ⟨rfl, rfl, rfl⟩

theorem sbu_next (hi : isSbu i = true) :
    t.regA = s.regA - v - s.carryIn ∧ t.regB = s.regB ∧ t.sr = cleared s.sr := by
  obtain ⟨u, a, len, turned, rfl⟩ := addSubtract_next hv h (addSubtractOf_sbu hi)
  rw [sbuOp_eq, turned.frame]
  exact ⟨rfl, rfl, rfl⟩

end

/-- Settles O32: the lower instruction records the carry or borrow that the upper one takes. -/
theorem doublePrecisionPair : Obligations.DoublePrecisionPair := by
  unfold Obligations.DoublePrecisionPair
  intro s t u i j lo hi hlo hexec hhi hexec'
  refine ⟨fun lower upper => ?_, fun lower upper => ?_⟩
  · obtain ⟨hA, hB, hsr⟩ := adl_next hlo hexec lower
    obtain ⟨hA', hB', hsr'⟩ := adu_next hhi hexec' upper
    refine ⟨?_, State.srBit_cleared hsr'⟩
    rw [words_add, hA', hB', hA, hB, State.carryIn_recorded hsr]
  · obtain ⟨hA, hB, hsr⟩ := sbl_next hlo hexec lower
    obtain ⟨hA', hB', hsr'⟩ := sbu_next hhi hexec' upper
    refine ⟨?_, State.srBit_cleared hsr'⟩
    rw [words_sub, hA', hB', hA, hB, State.carryIn_recorded hsr]

end Sys2Proof.Machine
end

section
/-! PROOFS. What arrives at the end of a step, and the gate before the I/O unit's writes (10_state.md R36; 20_memory.md
R68, R80; 60_exceptions.md R465, R466, R482). -/

namespace Sys2Proof.Machine

/-! ### Arrivals -/

/-- What an arrival leaves, field by field (60_exceptions.md R466; log 16). -/
theorem State.arrive_eq (s : State) (a : Arrival) :
    s.arrive a = { s with
      pending := s.pending ||| (a.requests &&& s.allowed), switches := a.switches.getD s.switches,
      testSignal := a.testSignal.getD s.testSignal, ioDeferred := s.ioDeferred ++ a.ioWrites,
      halted := s.halted && !a.resume } := by
  unfold State.arrive
  cases a.resume with
  | true =>
    rw [Bool.not_true, Bool.and_false]
    rfl
  | false =>
    rw [Bool.not_false, Bool.and_true]
    rfl

/-- Settles O59: a request is latched where its level is allowed. -/
theorem arrivalsTakeEffect : Obligations.ArrivalsTakeEffect := by
  unfold Obligations.ArrivalsTakeEffect
  intro s a
  refine ⟨_, s.arrive_eq a, fun l hl => ?_⟩
  rw [BitVec.getLsbD_or, BitVec.getLsbD_and, State.allowed_getLsbD s hl]

/-! ### The writes that the I/O unit makes -/

/-- Memory after fullword writes, each made where memory is present and the address even (20_memory.md R68, R80). -/
def State.writesMade (s : State) (ws : List IoWrite) (m : Memory) : Memory :=
  ws.foldl (fun m w => if s.readable32 w.addr then m.putWord w.addr w.data else m) m

theorem State.ioWrite_mem_eq (s : State) (w : IoWrite) :
    (s.ioWrite w).mem = if s.readable32 w.addr then s.mem.putWord w.addr w.data else s.mem := by
  unfold State.ioWrite State.readable32
  split <;> rfl

/-- The writes of the I/O unit leave in memory what `writesMade` says. -/
theorem State.ioWrites_made {s t : State} (hc : t.cfg = s.cfg) (ws : List IoWrite) :
    (ws.foldl State.ioWrite t).mem = s.writesMade ws t.mem := by
  induction ws generalizing t with
  | nil => rfl
  | cons w ws ih =>
    have readable : t.readable32 w.addr = s.readable32 w.addr := by
      simp only [State.readable32, State.isPresent, hc]
    rw [List.foldl_cons, ih ((State.ioWrite_cfg t w).trans hc), State.ioWrite_mem_eq, readable]
    rfl

/-! ### The writes that wait -/

theorem State.flushIo_off {s : State} (h : s.srBit 14 = false) : s.flushIo = s := if_neg (by simp [h])

theorem State.flushIo_on {s : State} (h : s.srBit 14 = true) :
    s.flushIo = (s.ioDeferred.foldl State.ioWrite s).setIoDeferred [] :=
  if_pos h

theorem State.flushIo_frame (s : State) :
    s.flushIo = { s with mem := s.flushIo.mem, irHeld := s.flushIo.irHeld, ioDeferred := s.flushIo.ioDeferred } := by
  cases h : s.srBit 14 with
  | false => rw [State.flushIo_off h]
  | true =>
    rw [State.flushIo_on h, State.ioWrites_frame]
    rfl

theorem State.flushIo_heldGrows (s : State) : s.HeldGrows s.flushIo := by
  cases h : s.srBit 14 with
  | false =>
    rw [State.flushIo_off h]
    exact .of_eq rfl
  | true =>
    rw [State.flushIo_on h]
    exact State.ioWrites_held s.ioDeferred s

/-! ### The end of a step -/

/-- With nothing arriving, the end of a step has the waiting writes made. -/
theorem State.environment_nil {s : State} (h : s.arrivals = []) : s.environment = s.flushIo := by
  unfold State.environment
  rw [h]

/-- The first arrival takes effect and is used up, then the waiting writes are made (log 16). -/
theorem State.environment_cons {s : State} {a : Arrival} {rest : List Arrival} (h : s.arrivals = a :: rest) :
    s.environment = ((s.arrive a).setArrivals rest).flushIo := by
  have swap : (s.setArrivals rest).arrive a = (s.arrive a).setArrivals rest := by
    rw [State.arrive_eq, State.arrive_eq]
    rfl
  unfold State.environment
  rw [h]
  exact congrArg State.flushIo swap

/-- The end of a step is the gate at a state `e` in which the arrival, if any, has taken effect. -/
theorem State.environment_flush (s : State) :
    ∃ e : State, s.environment = e.flushIo ∧ e.srBit 14 = s.srBit 14 ∧ e.irHeld = s.irHeld := by
  cases h : s.arrivals with
  | nil => exact ⟨s, State.environment_nil h, rfl, rfl⟩
  | cons a rest =>
    refine ⟨_, State.environment_cons h, ?_⟩
    rw [State.arrive_eq]
    exact ⟨rfl, rfl⟩

theorem State.environment_heldGrows (s : State) : s.HeldGrows s.environment := by
  obtain ⟨e, he, _, hh⟩ := s.environment_flush
  rw [he]
  exact .trans (.of_eq hh) e.flushIo_heldGrows

theorem State.environment_irHeld_off {s : State} (h : s.srBit 14 = false) : s.environment.irHeld = s.irHeld := by
  obtain ⟨e, he, hb, hh⟩ := s.environment_flush
  rw [he, State.flushIo_off (hb.trans h), hh]

/-- Settles O60: the gate before an access (`ioTurn`) and at the end of a step (`flushIo`), each by SR14. -/
theorem memoryInterruptGate : Obligations.MemoryInterruptGate := by
  unfold Obligations.MemoryInterruptGate
  intro s
  refine ⟨fun h => ?_, fun h => ?_, fun hn h => ?_, fun hn h => ?_, fun a rest hc => ?_, fun hn => ?_,
    fun a rest hc => ?_, s.environment_heldGrows, State.environment_irHeld_off, fun w hr hw => ?_⟩
  · rw [State.ioTurn_eq, h]
    rfl
  · rw [State.ioTurn_eq, h]
    exact ⟨State.ioWrites_made rfl _, rfl, rfl⟩
  · rw [State.environment_nil hn, State.flushIo_off h]
  · rw [State.environment_nil hn, State.flushIo_on h]
    exact ⟨State.ioWrites_made rfl _, rfl⟩
  · rw [State.environment_cons hc]
    refine ⟨?_, ?_, ?_, ?_, ?_, fun h => ?_, fun h => ?_⟩
    case refine_6 =>
      rw [State.flushIo_off (by rw [State.arrive_eq]; exact h), State.arrive_eq]
      exact ⟨rfl, rfl⟩
    case refine_7 =>
      rw [State.flushIo_on (by rw [State.arrive_eq]; exact h), State.arrive_eq]
      exact ⟨State.ioWrites_made rfl _, rfl⟩
    all_goals
      rw [State.flushIo_frame]
      rfl
  · rw [State.environment_nil hn]
    exact s.flushIo_frame
  · rw [State.environment_cons hc]
    exact State.flushIo_frame _
  · have even : isOdd w.addr = false := by
      simp only [State.readable32, Bool.and_eq_true, Bool.not_eq_true'] at hr
      exact hr.1.1
    simp only [List.foldl_cons, List.foldl_nil, hr, if_true]
    exact storedWord_putWord s.mem w.addr w.data hw even

end Sys2Proof.Machine
end

section
/-! PROOFS. Which halfwords an instruction leaves alone: absent ones, and protected ones that the I/O unit does not ask to
write (20_memory.md R67, R73, R75, R80). -/

namespace Sys2Proof.Machine

/-- A halfword that no store can reach: absent, or protected and outside the words that the I/O unit may still write. -/
def State.Guards (s : State) (a : Addr) : Prop :=
  (s.isProtected a = true ∧ ∀ w ∈ s.ioWrites, w.addr ≠ a ∧ w.addr + 1 ≠ a) ∨ s.isPresent a = false

/-- Writes of the I/O unit to other words leave a halfword alone. -/
theorem State.ioWrites_half {ws : List IoWrite} {a : Addr} (s : State)
    (h : ∀ w ∈ ws, w.addr ≠ a ∧ w.addr + 1 ≠ a) : (ws.foldl State.ioWrite s).mem.half a = s.mem.half a := by
  induction ws generalizing s with
  | nil => rfl
  | cons w ws ih =>
    rw [List.foldl_cons, ih _ fun v hv => h v (List.mem_cons_of_mem _ hv)]
    obtain ⟨high, low⟩ := h w List.mem_cons_self
    rcases State.ioWrite_cases s w with same | ⟨_, _, _, put⟩
    · rw [same]
    · rw [put, Memory.half_putWord_ne _ _ high.symm low.symm]

theorem State.Turned.half_guarded {s t : State} {a : Addr} (h : s.Turned t) (ha : s.Guards a) :
    t.mem.half a = s.mem.half a := by
  rcases ha with ⟨_, apart⟩ | absent
  · obtain ⟨ws, horder, _, hmem, _⟩ := h.order
    rw [hmem, State.ioWrites_half s fun w hw => apart w (horder ▸ List.mem_append_left _ hw)]
  · exact h.absent a absent

/-- A store and the turn before it. -/
theorem Stores.half_guarded {s t : State} {half : Bool} {a b : Addr} (h : Stores (s.storeTurn half b) t)
    (ha : s.Guards a) : t.mem.half a = s.mem.half a := by
  refine (h.guarded a ?_).trans (s.ioTurn_turned.half_guarded ha)
  rw [State.storeTurn_isProtected, State.storeTurn_isPresent]
  exact ha.imp_left And.left

/-- The requests that stand after an instruction are the last of those before it. -/
theorem Effect.ioWrites_suffix {i : Instr} {s t : State} (h : Effect i s t) : t.ioWrites <:+ s.ioWrites := by
  have drained : ∀ {u v : State}, u.Drains v → v.ioWrites <:+ u.ioWrites := fun ⟨ws, hw, _⟩ => ⟨ws, hw.symm⟩
  induction h with
  | turned h => exact drained h.drains
  | store16 h => exact drained (State.store16_stores h).drains
  | store32 h => exact drained (State.store32_stores h).drains
  | registers h => exact drained (.of_eq (by rw [h]; rfl))
  | transfer _ h => exact drained (.of_eq (by rw [h]; rfl))
  | status | index | mask | complete | halt => exact drained (.of_eq rfl)
  | panel =>
    unfold State.panelServed
    split <;> exact drained (.of_eq rfl)
  | trans _ _ ih ih' => exact ih'.trans ih

/-- What no store can reach stays out of reach. -/
theorem Effect.guards {i : Instr} {s t : State} {a : Addr} (h : Effect i s t) (ha : s.Guards a) : t.Guards a := by
  unfold State.Guards State.isProtected State.isPresent at *
  rw [h.kept.cfg_eq]
  exact ha.imp_left fun ⟨hp, apart⟩ => ⟨hp, fun w hw => apart w (h.ioWrites_suffix.subset hw)⟩

/-- Whatever an instruction does leaves alone what no store can reach. -/
theorem Effect.half_guarded {i : Instr} {s t : State} {a : Addr} (h : Effect i s t) (ha : s.Guards a) :
    t.mem.half a = s.mem.half a := by
  induction h with
  | turned h => exact h.half_guarded ha
  | store16 h => exact (State.store16_stores h).half_guarded ha
  | store32 h => exact (State.store32_stores h).half_guarded ha
  | registers h => rw [h]
  | transfer _ h => rw [h]
  | status | index | mask | complete | halt => rfl
  | panel =>
    unfold State.panelServed
    split <;> rfl
  | trans h _ ih ih' => exact (ih' (h.guards ha)).trans (ih ha)

/-- Settles O11: every elementary change of an instruction leaves such a halfword alone. -/
theorem protectedMemoryUnchanged : Obligations.ProtectedMemoryUnchanged := by
  unfold Obligations.ProtectedMemoryUnchanged
  intro i s t a h ha
  exact (exec_effect h).half_guarded ha

end Sys2Proof.Machine
end

section
/-! PROOFS. The accesses of an instruction: operands, the turns of the I/O unit that go with them, and what is read back
after a store (20_memory.md R63, R66, R68, R80, R82; 30_encoding.md R115, R116, R118). -/

namespace Sys2Proof.Machine

/-! ### A number of turns -/

/-- `t` is `s` after some number of turns of the I/O unit, one before each access. -/
def State.TurnsTo (s t : State) : Prop := Relation.ReflTransGen (fun u v : State => v = u.ioTurn) s t

theorem State.TurnsTo.refl (s : State) : s.TurnsTo s := Relation.ReflTransGen.refl

theorem State.turnsTo_ioTurn (s : State) : s.TurnsTo s.ioTurn := Relation.ReflTransGen.single rfl

theorem State.TurnsTo.trans {s t u : State} (h : s.TurnsTo t) (g : t.TurnsTo u) : s.TurnsTo u :=
  Relation.ReflTransGen.trans h g

theorem State.TurnsTo.turned {s t : State} (h : s.TurnsTo t) : s.Turned t := by
  induction h with
  | refl => exact .refl s
  | tail _ hturn ih =>
    subst hturn
    exact ih.trans (State.ioTurn_turned _)

/-- With nothing asked for and nothing waiting, no number of turns changes anything. -/
theorem State.TurnsTo.eq_of_quiet {s t : State} (h : s.TurnsTo t) (hd : s.ioDeferred = []) (hl : s.steals = []) :
    t = s := by
  induction h with
  | refl => rfl
  | tail _ hturn ih => rw [hturn, ih, State.ioTurn_quiet s hd hl]

theorem State.load16_turnsTo {s t : State} {a : Addr} {v : Half} (h : s.load16 a = .ok (v, t)) : s.TurnsTo t :=
  (State.load16_ok.1 h).2 ▸ s.turnsTo_ioTurn

theorem State.load32_turnsTo {s t : State} {a : Addr} {v : Word32} (h : s.load32 a = .ok (v, t)) : s.TurnsTo t :=
  (State.load32_ok.1 h).2 ▸ s.turnsTo_ioTurn

theorem State.operand_turnsTo {s t : State} {r : Ref} {v : Word32} (h : s.operand r = .ok (v, t)) : s.TurnsTo t := by
  unfold State.operand at h
  split at h
  · cases h
    exact .refl s
  · split at h
    · obtain ⟨⟨_, _⟩, hl, hr⟩ := bind_ok.1 h
      cases hr
      exact State.load16_turnsTo hl
    · exact State.load32_turnsTo h

theorem State.indexOperand_turnsTo {s t : State} {r : Ref} {v : Addr} (h : s.indexOperand r = .ok (v, t)) :
    s.TurnsTo t := by
  unfold State.indexOperand at h
  split at h
  · cases h
    exact .refl s
  · obtain ⟨⟨_, _⟩, hl, hr⟩ := bind_ok.1 h
    cases hr
    exact State.load32_turnsTo hl

/-- Each pointer word is one access (30_encoding.md R114). -/
theorem State.chain_turnsTo {desig : Bool} {n : Nat} {s t : State} {ea : Addr} {i m h : Bool} {r : Ref}
    (hc : s.chain desig n ea i m h = .ok (r, t)) : s.TurnsTo t := by
  induction n generalizing s ea i m h with
  | zero => cases i <;> cases m <;> cases hc <;> exact .refl _
  | succ n ih =>
    match i, m, hc with
    | false, _, hc =>
      cases hc
      exact .refl _
    | true, true, hc => cases hc
    | true, false, hc =>
      obtain ⟨⟨w, u⟩, hl, hr⟩ := bind_ok.1 hc
      dsimp only at hr
      split at hr
      · cases hr
      · exact (State.load32_turnsTo hl).trans (ih hr)

/-- Settles O18: an operand, an index operand, a turn and a chain each take a number of turns. -/
theorem accessesAreTurns : Obligations.AccessesAreTurns := by
  unfold Obligations.AccessesAreTurns
  intro s
  refine ⟨fun t ht => ?_, fun half a => rfl, fun r => rfl⟩
  have turns : s.TurnsTo t := by
    rcases ht with ⟨r, v, h⟩ | ⟨r, v, h⟩ | rfl | ⟨desig, index, i, m, h, m16, r, hr⟩
    · exact State.operand_turnsTo h
    · exact State.indexOperand_turnsTo h
    · exact s.turnsTo_ioTurn
    · exact State.chain_turnsTo hr
  refine ⟨turns.turned, fun hq => ?_, turns.eq_of_quiet⟩
  obtain ⟨hm, hh, _⟩ := turns.turned.quiet hq
  exact ⟨hm, hh⟩

/-! ### Operands -/

theorem State.load16_of_present {s : State} {a : Addr} (h : s.isPresent a = true) :
    s.load16 a = .ok (s.ioTurn.mem.half a, s.ioTurn) :=
  State.load16_ok.2 ⟨State.read16_ok.2 ⟨(s.ioTurn_isPresent a).trans h, rfl⟩, rfl⟩

/-- Settles O21: the cases of M and H (30_encoding.md R115, R116, R118). -/
theorem operandRules : Obligations.OperandRules := by
  unfold Obligations.OperandRules
  intro s a
  refine ⟨rfl, ⟨_, rfl, BitVec.toInt_signExtend_of_le (by omega)⟩, fun hp => ?_, fun hr => State.load32_of_readable hr,
    fun h => rfl, fun h hr => ?_⟩
  · rw [State.operand, if_neg Bool.false_ne_true, if_pos rfl, bind_of_ok _ (State.load16_of_present hp)]
  · rw [State.indexOperand, if_neg Bool.false_ne_true, bind_of_ok _ (State.load32_of_readable hr)]

/-! ### Reading back -/

/-- A fullword in memory that replaces the present one is read where the address is even and present. -/
theorem State.read32_setMem {s : State} {a : Addr} {m : Memory} (ho : isOdd a = false) (hp : s.isPresent a = true)
    (hp1 : s.isPresent (a + 1) = true) : (s.setMem m).read32 a = .ok (m.word a) :=
  State.read32_ok.2 ⟨ho, hp, hp1, rfl⟩

/-- Settles O16: a store puts its value into the memory that the I/O unit's turn left. -/
theorem writtenIsReadBack : Obligations.WrittenIsReadBack := by
  unfold Obligations.WrittenIsReadBack
  intro s a hwf
  have canonical := (State.ioTurn_mem s).1 hwf
  refine ⟨fun v hw => ?_, fun v hw => ?_⟩
  · obtain ⟨hword, outside⟩ := storedWord_putWord _ a v canonical (State.isOdd_of_writable32 hw)
    have hs := State.store32_of_writable v hw
    obtain ⟨hodd, hp, hp1, _⟩ := State.write32_ok.1 hs
    refine ⟨s.ioTurn.mem.putWord a v, hs, ?_, outside⟩
    exact (State.read32_setMem hodd hp hp1).trans (congrArg _ hword)
  · obtain ⟨hhalf, outside⟩ := storedHalf_putHalf _ a v canonical
    have hs := State.store16_of_writable v hw
    obtain ⟨hp, _⟩ := State.write16_ok.1 hs
    exact ⟨s.ioTurn.mem.putHalf a v, hs, State.read16_ok.2 ⟨hp, hhalf⟩, outside⟩

end Sys2Proof.Machine
end

section
/-! PROOFS. The stores of A and B, and return to memory of the add and subtract instructions (40_load_store.md R169 to
R173; 41_fixed_arith.md R202 to R218). -/

namespace Sys2Proof.Machine

/-- A store of either width completes, and keeps OAR, where the cell may be written. -/
theorem State.storeBack_setOar {s : State} {r : Ref} (v : Word32) (hm : s.mem.wf = true) (hw : s.writable r = true) :
    ∃ m', (s.setOar r.addr).storeBack r.addr r.half v =
        .ok (((s.storeTurn r.half r.addr).setOar r.addr).setMem m') ∧
      stored (s.storeTurn r.half r.addr).mem m' r v := by
  obtain ⟨m', hs, hstored⟩ := State.storeBack_of_writable (s := s.setOar r.addr) v hm hw
  rw [State.storeTurn_setOar] at hs hstored
  exact ⟨m', hs, hstored⟩

/-! ### Stores of a register -/

section
variable {s : State} {r : Ref} {ref : RefAccess} (len : Addr) (hr : ref = .ok (r, s)) (hi : r.imm = false)
  (hm : s.mem.wf = true)
include hr hi hm

theorem storeRegister_completes (v : Word32) (hw : s.writable r = true) :
    ∃ m', storeRegister v ref len = .next { s.storeTurn r.half r.addr with
        mem := m', oar := r.addr, pc := s.pc + len } ∧
      stored (s.storeTurn r.half r.addr).mem m' r v := by
  obtain ⟨m', hs, hstored⟩ := State.storeBack_setOar v hm hw
  refine ⟨m', storeRegister_next.2 ⟨r, s, _, hr, hi, hs, ?_⟩, hstored⟩
  rw [← s.storeTurn_pc r.half r.addr]
  rfl

/-- STH stores a halfword whatever the reference says (R173). -/
theorem storeHalfA_completes (hw : s.writable16 r.addr = true) :
    ∃ m', storeHalfA ref len = .next { s.storeTurn true r.addr with mem := m', oar := r.addr, pc := s.pc + len } ∧
      storedHalf (s.storeTurn true r.addr).mem m' r.addr (s.regA.extractLsb' 16 16) := by
  obtain ⟨m', hs, hstored⟩ := State.storeBack_setOar (r := ⟨r.addr, false, true⟩) s.regA hm hw
  refine ⟨m', storeHalfA_next.2 ⟨r, s, _, hr, hi, hs, ?_⟩, hstored⟩
  rw [← s.storeTurn_pc true r.addr]
  rfl

end

theorem State.Turned.regA_eq {s t : State} (h : s.Turned t) : t.regA = s.regA := by rw [h.frame]

theorem State.Turned.regB_eq {s t : State} (h : s.Turned t) : t.regB = s.regB := by rw [h.frame]

/-- Settles O25: the forms differ in their reference alone. -/
theorem storesComplete : Obligations.StoresComplete := by
  unfold Obligations.StoresComplete
  intro s r hm hi
  have direct : ∀ {q : Ref}, q = r → s.direct q = .ok (r, s) := congrArg s.direct
  refine ⟨fun hw => ⟨fun x1 m7 hr => ?_, fun t x1 x2 i m m16 hr => ?_, fun t x1 x2 i m m16 hr => ?_⟩,
    fun hw => ⟨fun x1 m7 hr => ?_, fun t x1 x2 i m h m16 hr => ?_⟩⟩
  · exact ⟨storeRegister_completes 1 (direct hr) hi hm _ hw, storeRegister_completes 1 (direct hr) hi hm _ hw⟩
  · have turned := State.longRef_reads hr
    rw [turned.regA_eq, turned.regB_eq]
    exact ⟨storeRegister_completes 2 hr hi hm _ hw, storeRegister_completes 2 hr hi hm _ hw⟩
  · have turned := State.longRef_reads hr
    rw [turned.regA_eq, turned.regB_eq]
    exact ⟨storeRegister_completes 2 hr hi hm _ hw, storeRegister_completes 2 hr hi hm _ hw⟩
  · exact storeHalfA_completes 1 (direct hr) hi hm hw
  · exact storeHalfA_completes 2 hr hi hm hw

/-! ### Return to memory -/

section
variable {s u : State} {r : Ref} {v : Word32} {ref : RefAccess} (len : Addr) (hr : ref = .ok (r, s))
  (hv : s.operand r = .ok (v, u)) (hi : r.imm = false) (hm : s.mem.wf = true) (hf : s.inFast r.addr = true)
  (hw : s.writable r = true)
include hr hv hi hm hf hw

/-- In the Fast Scratchpad the result of a computation is stored and its flags are set, from the state of the store's
turn (R202). -/
theorem aluReturn_completes {op : AluOp} {a : Word32} {sr : BitVec 16} (hop : op u v = (a, sr)) :
    ∃ m', aluReturn op ref len = .next { u.storeTurn r.half r.addr with
        mem := m', sr := sr, oar := r.addr, pc := s.pc + len } ∧
      stored (u.storeTurn r.half r.addr).mem m' r a := by
  have turned := State.operand_turned hv
  have cfg_eq : u.cfg = s.cfg := turned.keeps.cfg_eq
  have fast : u.inFast r.addr = true := by rw [State.inFast, cfg_eq]; exact hf
  have writable : u.writable r = true := by
    unfold State.writable State.writable32 State.writable16 State.isPresent State.isProtected at *
    rw [cfg_eq]
    exact hw
  have canonical : u.mem.wf = true := by
    obtain ⟨ws, _, _, hmem, _⟩ := turned.order
    rw [hmem]
    exact (State.ioWrites_mem ws s).1 hm
  obtain ⟨m', hs, hstored⟩ := State.storeBack_setOar a canonical writable
  refine ⟨m', aluReturn_next.2 ⟨r, s, v, u, hr, hv, hi, .inl ⟨fast, _, by rw [hop]; exact hs, ?_⟩⟩, hstored⟩
  rw [hop, show s.pc = (u.storeTurn r.half r.addr).pc by rw [State.storeTurn_pc, turned.frame]]
  rfl

end

/-- Settles O30: the operand's turn leaves the registers alone, and the forms differ in their reference alone. -/
theorem returnVariantsStore : Obligations.ReturnVariantsStore := by
  unfold Obligations.ReturnVariantsStore
  intro s u r v hm hv hi hf hw
  have frame := (State.operand_turned hv).frame
  have adu : aduOp u v = (s.regA + v + s.carryIn, cleared s.sr) := by rw [aduOp_eq, frame]; rfl
  have sbu : sbuOp u v = (s.regA - v - s.carryIn, cleared s.sr) := by rw [sbuOp_eq, frame]; rfl
  have adl : adlOp u v = (s.regB + v, recorded s.sr (carryL s.regB v)) := by rw [adlOp_eq, frame]
  have sbl : sblOp u v = (s.regB - v, recorded s.sr (borrowL s.regB v)) := by rw [sblOp_eq, frame]
  refine ⟨fun m7 hr => ?_, fun t x2 i m m16 hr => ?_, fun t x2 i m m16 hr => ?_⟩
  · have direct : s.direct (s.shortReturnRef m7) = .ok (r, s) := congrArg s.direct hr
    exact ⟨aluReturn_completes 1 direct hv hi hm hf hw adu, aluReturn_completes 1 direct hv hi hm hf hw sbu,
      aluReturn_completes 1 direct hv hi hm hf hw adl, aluReturn_completes 1 direct hv hi hm hf hw sbl⟩
  · exact ⟨aluReturn_completes 2 hr hv hi hm hf hw adu, aluReturn_completes 2 hr hv hi hm hf hw sbu,
      aluReturn_completes 2 hr hv hi hm hf hw adl, aluReturn_completes 2 hr hv hi hm hf hw sbl⟩
  · exact ⟨aluReturn_completes 2 hr hv hi hm hf hw adu, aluReturn_completes 2 hr hv hi hm hf hw sbu,
      aluReturn_completes 2 hr hv hi hm hf hw adl, aluReturn_completes 2 hr hv hi hm hf hw sbl⟩

end Sys2Proof.Machine
end

section
/-! PROOFS. Instruction fetch: which contents may run, where it stops, and the step that follows (20_memory.md R66, R68, R82;
30_encoding.md R100, R124, R128). -/

namespace Sys2Proof.Machine

/-! ### The contents that may run -/

/-- What may run at pc is one of some contents, the present one among them. -/
theorem State.now_mem_runnable (s : State) : s.mem.half s.pc ∈ s.runnable := by
  unfold State.runnable
  split
  · split <;> simp
  · simp

/-- The halfword that is fetched is one that may run (20_memory.md R82; log 14). -/
theorem State.nextHalf_mem (s : State) : s.nextHalf.1 ∈ s.runnable := by
  unfold State.nextHalf
  dsimp only
  split
  · exact s.now_mem_runnable
  · have nonempty : 0 < s.runnable.length := List.length_pos_of_mem s.now_mem_runnable
    dsimp only
    rw [List.getD_eq_getElem _ _ (Nat.mod_lt _ nonempty)]
    exact List.getElem_mem _

theorem State.runnable_of_held {s : State} {h : Held} (hh : s.irHeld = some h) (ha : h.addr = s.pc) :
    s.runnable = if h.past = [] then [s.mem.half s.pc] else s.ir.extractLsb' 0 16 :: h.past ++ [s.mem.half s.pc] := by
  unfold State.runnable
  rw [hh]
  by_cases hp : h.past = [] <;> simp [ha, hp]

/-- Where no other content may run, the present one does. -/
theorem State.nextHalf_of_settled {s : State} (h : s.settled) : s.nextHalf = (s.mem.half s.pc, s) := by
  refine if_pos (List.all_eq_true.2 fun x hx => beq_iff_eq.2 ?_)
  cases hh : s.irHeld with
  | none => simpa [State.runnable, hh] using hx
  | some g =>
    by_cases ha : g.addr = s.pc
    · rw [State.runnable_of_held hh ha] at hx
      split at hx
      · exact List.mem_singleton.1 hx
      · rename_i hp
        rcases List.mem_append.1 hx with hold | hnow
        · exact (h g hh ha).resolve_left hp x hold
        · exact List.mem_singleton.1 hnow
    · simpa [State.runnable, hh, ha] using hx

/-! ### What the fetch answers -/

theorem decodeFetched_ok {bytes rest : List Byte} {i : Instr} (s : State) (h : decode bytes = .ok (i, rest)) :
    decodeFetched bytes s = .ok (i, s) := by
  rw [decodeFetched, h]

theorem decodeFetched_error {bytes : List Byte} (s : State) (h : ∃ e, decode bytes = .error e) :
    decodeFetched bytes s = .error .unassignedOpcode := by
  obtain ⟨e, he⟩ := h
  rw [decodeFetched, he]

theorem decode_of_decodeFetched {bytes : List Byte} {s t : State} {i : Instr} (h : decodeFetched bytes s = .ok (i, t)) :
    ∃ rest, decode bytes = .ok (i, rest) := by
  unfold decodeFetched at h
  split at h
  · rename_i heq
    cases h
    exact ⟨_, heq⟩
  · cases h

/-- The fullword that IR receives with a short instruction (10_state.md R24; log 14). -/
theorem State.fetchShort_now (s : State) : s.fetchShort (s.mem.half s.pc) =
    if isOdd s.pc then { s with ir := s.mem.word (s.pc - 1), irHeld := none }
    else { s with ir := s.mem.word s.pc, irHeld := some ⟨s.pc + 1, []⟩ } := by
  unfold State.fetchShort
  split
  · rw [Memory.word, BitVec.sub_add_cancel]
    rfl
  · rfl

section
variable {s : State} (hp : s.isPresent s.pc = true)
include hp

/-- Where pc is present the fetch goes on with one of the contents that may run. -/
theorem State.fetchNow_present : s.fetchNow =
    if isLong s.nextHalf.1 then
      if isOdd s.pc then .error .misaligned
      else do
        let lo ← s.read16 (s.pc + 1)
        decodeFetched (halfBytes s.nextHalf.1 ++ halfBytes lo) (s.nextHalf.2.setIr (s.nextHalf.1 ++ lo) none)
    else decodeFetched (halfBytes s.nextHalf.1) (s.nextHalf.2.fetchShort s.nextHalf.1) := by
  rw [State.fetchNow, bind_of_ok _ (State.read16_ok.2 ⟨hp, rfl⟩)]

variable (hs : s.settled)
include hs

theorem State.fetchNow_short (hl : isLong (s.mem.half s.pc) = false) :
    s.fetchNow = decodeFetched (halfBytes (s.mem.half s.pc)) (s.fetchShort (s.mem.half s.pc)) := by
  rw [State.fetchNow_present hp, State.nextHalf_of_settled hs, if_neg (by simp [hl])]

theorem State.fetchNow_odd (hl : isLong (s.mem.half s.pc) = true) (ho : isOdd s.pc = true) :
    s.fetchNow = .error .misaligned := by
  rw [State.fetchNow_present hp, State.nextHalf_of_settled hs, if_pos hl, if_pos ho]

theorem State.fetchNow_even (hl : isLong (s.mem.half s.pc) = true) (ho : isOdd s.pc = false) :
    s.fetchNow = (do
      let lo ← s.read16 (s.pc + 1)
      decodeFetched (halfBytes (s.mem.half s.pc) ++ halfBytes lo) (s.setIr (s.mem.half s.pc ++ lo) none)) := by
  rw [State.fetchNow_present hp, State.nextHalf_of_settled hs, if_pos hl, if_neg (by simp [ho])]

/-- A long instruction at an even address, its second half present too. -/
theorem State.fetchNow_long (hl : isLong (s.mem.half s.pc) = true) (ho : isOdd s.pc = false)
    (hp1 : s.isPresent (s.pc + 1) = true) :
    s.fetchNow = decodeFetched (halfBytes (s.mem.half s.pc) ++ halfBytes (s.mem.half (s.pc + 1)))
      { s with ir := s.mem.word s.pc, irHeld := none } := by
  rw [State.fetchNow_even hp hs hl ho, bind_of_ok _ (State.read16_ok.2 ⟨hp1, rfl⟩)]
  rfl

end

/-! ### The step that follows -/

theorem step_of_fetch {s s1 : State} {i : Instr} (hh : s.halted = false) (hf : s.fetch = .ok (i, s1)) :
    step s = concluded (exec i s1) := by
  rw [step, if_neg (by simp [hh]), hf]
  dsimp only
  cases exec i s1 <;> rfl

theorem step_of_fetch_error {s : State} {e : Fault} (hh : s.halted = false) (hf : s.fetch = .error e) :
    step s = .fault e := by
  rw [step, if_neg (by simp [hh]), hf]

/-- Settles O5: a short instruction, and a long one at an even address. -/
theorem stepRunsDecoded : Obligations.StepRunsDecoded := by
  unfold Obligations.StepRunsDecoded
  intro s i rest hh hp u hs
  have present : u.isPresent u.pc = true := by rw [State.ioTurn_pc, State.ioTurn_isPresent, hp]
  refine ⟨fun hl hd => step_of_fetch hh ?_, fun hl ho hp1 hd => step_of_fetch hh ?_⟩
  · rw [← State.fetchShort_now]
    exact (State.fetchNow_short present hs hl).trans (decodeFetched_ok _ hd)
  · exact (State.fetchNow_long present hs hl ho hp1).trans (decodeFetched_ok _ hd)

/-- Settles O6: each stop is the fetch's. -/
theorem stepStops : Obligations.StepStops := by
  unfold Obligations.StepStops
  intro s hh u hs
  refine ⟨fun hp => ?_, fun hp hl ho => ?_, fun hp hl ho hp1 => ?_, fun hp hl hd => ?_, fun hp hl ho hp1 hd => ?_⟩
  all_goals refine step_of_fetch_error hh ?_
  · exact bind_error _ (State.read16_absent hp)
  · exact State.fetchNow_odd hp hs hl ho
  · exact (State.fetchNow_even hp hs hl ho).trans (bind_error _ (State.read16_absent hp1))
  · exact (State.fetchNow_short hp hs hl).trans (decodeFetched_error _ hd)
  · exact (State.fetchNow_long hp hs hl ho hp1).trans (decodeFetched_error _ hd)

/-- A halfword that may run and is short is what the fetch decodes. -/
theorem State.fetchNow_decodes {s t : State} {i : Instr} (hf : s.fetchNow = .ok (i, t))
    (hl : isLong s.nextHalf.1 = false) : ∃ rest, decode (halfBytes s.nextHalf.1) = .ok (i, rest) := by
  obtain ⟨_, hr, _⟩ := bind_ok.1 hf
  rw [State.fetchNow_present (State.read16_ok.1 hr).1, if_neg (by simp [hl])] at hf
  exact decode_of_decodeFetched hf

/-- Settles O7: the halfword fetched is one that may run, and without a store of the CPU only the present one may. -/
theorem staleFetchIsOldOrNew : Obligations.StaleFetchIsOldOrNew := by
  unfold Obligations.StaleFetchIsOldOrNew
  intro s s1 i h u hh ha hf
  have runs := u.nextHalf_mem
  rw [State.runnable_of_held hh ha] at runs
  refine ⟨fun short => ?_, fun unstored short => ?_⟩
  · have known : u.nextHalf.1 ∈ u.ir.extractLsb' 0 16 :: h.past ++ [u.mem.half u.pc] := by
      split at runs
      · exact List.mem_append_right _ runs
      · exact runs
    exact ⟨_, known, State.fetchNow_decodes hf (short _ known)⟩
  · rw [if_pos unstored] at runs
    rw [← List.mem_singleton.1 runs] at short ⊢
    exact State.fetchNow_decodes hf short

end Sys2Proof.Machine
end

section
/-! PROOFS. Entry to an interrupt level (60_exceptions.md R463, R470, R471, R481). -/

namespace Sys2Proof.Machine

/-- The locations of the baseline machine (R463). -/
theorem baseline_locations (l : Fin 16) :
    Config.baseline.transferAt.get l = BitVec.ofNat 18 (32672 + 2 * l) ∧
      Config.baseline.returnAt.get l = BitVec.ofNat 18 (32736 + 2 * l) := by
  revert l
  decide

theorem State.enterInterrupt_absent {s : State} {l : Nat}
    (h : s.isPresent (s.transferLoc l) = false ∨ s.isPresent (s.transferLoc l + 1) = false) :
    s.enterInterrupt l = .error .nonexistentMemory :=
  if_neg (by rcases h with h | h <;> rw [h] <;> simp)

/-- With its transfer location present, entry stops where the store of the return address does. -/
theorem State.enterInterrupt_error {s : State} {l : Nat} {e : Fault} (hp : s.isPresent (s.transferLoc l) = true)
    (hp1 : s.isPresent (s.transferLoc l + 1) = true)
    (h : ∀ v, s.storeReturn (s.returnLoc l) v = .error e) : s.enterInterrupt l = .error e := by
  rw [State.enterInterrupt, if_pos (by rw [hp, hp1]; rfl)]
  exact bind_error _ (h _)

theorem State.storeReturn_odd {s : State} {a : Addr} (v : Word32) (h : isOdd a = true) :
    s.storeReturn a v = .error .misaligned :=
  if_pos h

theorem State.storeReturn_absent {s : State} {a : Addr} (v : Word32) (ho : isOdd a = false)
    (h : s.isPresent a = false ∨ s.isPresent (a + 1) = false) : s.storeReturn a v = .error .nonexistentMemory := by
  rw [State.storeReturn, if_neg (by simp [ho]), if_neg (by rcases h with h | h <;> rw [h] <;> simp)]

theorem withBit_true (v : BitVec 16) (n : Nat) : withBit v n true = v ||| (1#16 <<< n) := rfl

/-- The latches that entry writes. -/
theorem State.setLatches_eq (s : State) (p q : BitVec 16) (n : Nat) :
    (((s.setPending p).setInService q).setHoldoff n).setHalted false =
      { s with pending := p, inService := q, holdoff := n, halted := false } :=
  rfl

/-- Settles O56: each stop in its order, and the entry after the turn of the store. -/
theorem interruptEntry : Obligations.InterruptEntry := by
  unfold Obligations.InterruptEntry
  intro s l hwf
  dsimp only
  rw [← State.transferLoc_fin, ← State.returnLoc_fin]
  refine ⟨fun hc => ?_, State.enterInterrupt_absent, fun hp hp1 => ⟨fun ho => ?_, fun ho h => ?_⟩, fun hp hp1 hr => ?_⟩
  · rw [State.transferLoc_fin, State.returnLoc_fin, hc]
    exact baseline_locations l
  · exact State.enterInterrupt_error hp hp1 fun v => State.storeReturn_odd v ho
  · exact State.enterInterrupt_error hp hp1 fun v => State.storeReturn_absent v ho h
  · simp only [State.readable32, Bool.and_eq_true, Bool.not_eq_true'] at hr
    obtain ⟨⟨ho, hb⟩, hb1⟩ := hr
    refine ⟨_, s.drawWord.extractLsb' 0 14 ++ s.pc, s.draws + 1,
      State.enterInterrupt_ok.2 ⟨hp, hp1, _, State.storeReturn_ok.2 ⟨ho, hb, hb1, rfl⟩, ?_⟩,
      storedWord_putWord _ _ _ ((State.ioTurn_mem s).1 hwf) ho, BitVec.extractLsb'_append_eq_right⟩
    rw [withBit_false, withBit_true, State.setLatches_eq, ← s.ioTurn_ir, ← s.ioTurn_draws]
    rw [State.setIr, State.setPc, State.drawn, State.setDraws, State.setMem]

end Sys2Proof.Machine
end

section
/-! PROOFS. Block transfers word by word: where they complete, where they stop, and ranges that overlap (49_block.md R450
to R454). -/

namespace Sys2Proof.Machine

/-! ### Words that move one after the other -/

/-- The words of a transfer change memory and what goes with it. -/
theorem State.moves_memoryOnly {toFast : Bool} {n : Nat} {s t : State} {c f : Addr} (h : s.moves toFast c f n t) :
    s.MemoryOnly t := by
  induction n generalizing s c f with
  | zero =>
    obtain rfl := h
    rfl
  | succ n ih =>
    obtain ⟨_, w, s1, s2, hl, hs, hm⟩ := h
    have loaded := (State.load32_turned hl).memoryOnly
    have moved := (State.store32_stores hs).memoryOnly
    have rest := ih hm
    unfold State.MemoryOnly at *
    rw [rest, moved, loaded]

theorem State.moveBlock_of_moves {toFast : Bool} {n : Nat} {s t : State} {c f : Addr} (h : s.moves toFast c f n t) :
    s.moveBlock toFast c f n = .ok t := by
  induction n generalizing s c f with
  | zero => exact congrArg Except.ok (Eq.symm h)
  | succ n ih =>
    obtain ⟨hf, w, s1, s2, hl, hs, hm⟩ := h
    rw [State.moveBlock, bind_of_ok _ (State.moveWord_ok.2 ⟨hf, w, s1, hl, hs⟩)]
    exact ih hm

theorem add_two_add (a : Addr) (k : Nat) : a + 2 + BitVec.ofNat 18 (2 * k) = a + BitVec.ofNat 18 (2 * (k + 1)) := by
  rw [BitVec.add_assoc]
  congr 1
  apply BitVec.eq_of_toNat_eq
  simp only [BitVec.toNat_add, BitVec.toNat_ofNat, show (2 : Addr).toNat = 2 from rfl]
  omega

/-- After k words the transfer stops where the next word does. -/
theorem State.moveBlock_error {toFast : Bool} {k n : Nat} {s t : State} {c f : Addr} {e : Fault} (hk : k < n)
    (h : s.moves toFast c f k t)
    (he : t.moveWord (f + BitVec.ofNat 18 (2 * (k + 1)))
      (if toFast then c + BitVec.ofNat 18 (2 * (k + 1)) else f + BitVec.ofNat 18 (2 * (k + 1)))
      (if toFast then f + BitVec.ofNat 18 (2 * (k + 1)) else c + BitVec.ofNat 18 (2 * (k + 1))) = .error e) :
    s.moveBlock toFast c f n = .error e := by
  obtain ⟨n, rfl⟩ : ∃ m, n = m + 1 := ⟨n - 1, by omega⟩
  induction k generalizing s c f n with
  | zero =>
    obtain rfl := h
    exact bind_error _ he
  | succ k ih =>
    obtain ⟨hf, w, s1, s2, hl, hs, hm⟩ := h
    obtain ⟨n, rfl⟩ : ∃ m, n = m + 1 := ⟨n - 1, by omega⟩
    rw [State.moveBlock, bind_of_ok _ (State.moveWord_ok.2 ⟨hf, w, s1, hl, hs⟩)]
    exact ih hm (by rw [add_two_add, add_two_add]; exact he) n (by omega)

/-! ### One word -/

section
variable {t : State} {fast src dst : Addr}

theorem State.moveWord_outside (h : t.inFast fast = false) : t.moveWord fast src dst = .error .blockOutsideFast :=
  if_pos (by simp [h])

variable (hf : t.inFast fast = true)
include hf

theorem State.moveWord_inside : t.moveWord fast src dst = (do
    let (w, s1) ← t.load32 src
    s1.store32 dst (w &&& t.regA)) :=
  if_neg (by simp [hf])

theorem State.moveWord_load_error {e : Fault} (h : t.load32 src = .error e) : t.moveWord fast src dst = .error e := by
  rw [State.moveWord_inside hf, bind_error _ h]

theorem State.moveWord_store_error {e : Fault} {w : Word32} {v : State} (h : t.load32 src = .ok (w, v))
    (hs : v.store32 dst (w &&& t.regA) = .error e) : t.moveWord fast src dst = .error e := by
  rw [State.moveWord_inside hf, bind_of_ok _ h]
  exact hs

end

theorem State.store32_odd {s : State} {a : Addr} (v : Word32) (h : isOdd a = true) :
    s.store32 a v = .error .misaligned :=
  if_pos h

/-! ### A whole transfer -/

/-- N (R450). -/
theorem State.wordCount_eq (s : State) (x1 : BitVec 3) (j : BitVec 7) :
    s.wordCount x1 j = (if x1 = 0 then 0 else (s.xr (x1.zeroExtend 4)).toNat) + j.toNat := by
  rw [State.wordCount, State.idx1, apply_ite BitVec.toNat]
  rfl

section
variable {toFast : Bool} {s t : State} {n k : Nat}

theorem blockTransfer_completes (h : s.moves toFast (s.regB.extractLsb' 0 18) (s.xr 0) n t) :
    blockTransfer toFast s n = .next { t.setXr 0 (s.xr 0 + BitVec.ofNat 18 (2 * n)) with
      regB := s.regB + BitVec.ofNat 32 (2 * n), pc := s.pc + 1 } := by
  rw [blockTransfer_next.2 ⟨t, State.moveBlock_of_moves h, rfl⟩, show s.pc = t.pc by rw [State.moves_memoryOnly h]]
  rfl

variable (hk : k < n) (h : s.moves toFast (s.regB.extractLsb' 0 18) (s.xr 0) k t)
include hk h

/-- A transfer stops as the word after those that move does. -/
theorem blockTransfer_fault {e : Fault} {c f : Addr}
    (hc : c = s.regB.extractLsb' 0 18 + BitVec.ofNat 18 (2 * (k + 1)))
    (hf : f = s.xr 0 + BitVec.ofNat 18 (2 * (k + 1)))
    (he : t.moveWord f (if toFast then c else f) (if toFast then f else c) = .error e) :
    blockTransfer toFast s n = .fault e := by
  subst hc hf
  exact congrArg finish (bind_error _ (State.moveBlock_error hk h he))

/-- The places where the word after those that move stops, in order: outside the Fast Scratchpad, at the read, at the
store (R454). -/
theorem blockTransfer_stops {c f : Addr} (hc : c = s.regB.extractLsb' 0 18 + BitVec.ofNat 18 (2 * (k + 1)))
    (hf : f = s.xr 0 + BitVec.ofNat 18 (2 * (k + 1))) :
    (t.inFast f = false → blockTransfer toFast s n = .fault .blockOutsideFast) ∧
    (t.inFast f = true → isOdd (if toFast then c else f) = true → blockTransfer toFast s n = .fault .misaligned) ∧
    (t.inFast f = true → t.readable32 (if toFast then c else f) = true → isOdd (if toFast then f else c) = true →
      blockTransfer toFast s n = .fault .misaligned) ∧
    (∀ e, t.inFast f = true → t.load32 (if toFast then c else f) = .error e → blockTransfer toFast s n = .fault e) ∧
    (∀ e w v, t.inFast f = true → t.load32 (if toFast then c else f) = .ok (w, v) →
      v.store32 (if toFast then f else c) (w &&& s.regA) = .error e → blockTransfer toFast s n = .fault e) := by
  refine ⟨fun hout => ?_, fun hin ho => ?_, fun hin hr ho => ?_, fun e hin hl => ?_, fun e w v hin hl hs => ?_⟩
  all_goals refine blockTransfer_fault hk h hc hf ?_
  · exact State.moveWord_outside hout
  · exact State.moveWord_load_error hin (State.load32_odd ho)
  · exact State.moveWord_store_error hin (State.load32_of_readable hr) (State.store32_odd _ ho)
  · exact State.moveWord_load_error hin hl
  · have regA_eq : t.regA = s.regA := by rw [State.moves_memoryOnly h]
    exact State.moveWord_store_error hin hl (regA_eq ▸ hs)

end

theorem State.setXr_self (s : State) (n : BitVec 4) : s.setXr n (s.xr n) = s := by
  rw [State.setXr, State.xr, Vector.get_eq_getElem, Vector.set_getElem_self]

/-- No words, no access (R450). -/
theorem blockTransfer_zero (toFast : Bool) (s : State) : blockTransfer toFast s 0 = .next { s with pc := s.pc + 1 } := by
  rw [blockTransfer_completes (t := s) (n := 0) (Eq.refl s)]
  have same : s.setXr 0 (s.xr 0 + BitVec.ofNat 18 (2 * 0)) = s := by
    rw [Nat.mul_zero, BitVec.ofNat_eq_ofNat, BitVec.add_zero, State.setXr_self]
  rw [same, Nat.mul_zero, BitVec.ofNat_eq_ofNat, BitVec.add_zero]

/-! ### A fast range one word above the core range -/

/-- What a store of an allowed word leaves where nothing is asked of the I/O unit. -/
theorem State.store32_quiet {s : State} {a : Addr} (v : Word32) (hio : s.ioWrites = []) (hw : s.writable32 a = true) :
    ∃ t, s.store32 a v = .ok t ∧ t.mem = s.mem.putWord a v ∧ t.ioWrites = [] ∧ s.MemoryOnly t := by
  have hs := State.store32_of_writable v hw
  obtain ⟨hm, _, hio'⟩ := s.ioTurn_turned.quiet hio
  exact ⟨_, hs, by rw [hm]; rfl, hio', (State.store32_stores hs).memoryOnly⟩

theorem State.readable32_of_writable32 {s : State} {a : Addr} (h : s.writable32 a = true) : s.readable32 a = true := by
  simp only [State.writable32, State.writable16, State.readable32, Bool.and_eq_true] at *
  obtain ⟨⟨ho, hp, _⟩, hp1, _⟩ := h
  exact ⟨⟨ho, hp⟩, hp1⟩

theorem toNat_add_even {a : Addr} {k : Nat} (h : a.toNat + 2 * k < 2 ^ 18) :
    (a + BitVec.ofNat 18 (2 * k)).toNat = a.toNat + 2 * k := by
  rw [BitVec.toNat_add, BitVec.toNat_ofNat]
  omega

/-- One word moved to the next place where nothing is asked of the I/O unit. -/
theorem State.moves_one_up {s : State} {a : Addr} (hio : s.ioWrites = []) (hr : s.readable32 a = true)
    (hw : s.writable32 (a + 2) = true) :
    ∃ s1 s2, s.load32 a = .ok (s.mem.word a, s1) ∧ s1.store32 (a + 2) (s.mem.word a &&& s.regA) = .ok s2 ∧
      s2.mem = s.mem.putWord (a + 2) (s.mem.word a &&& s.regA) ∧ s2.ioWrites = [] ∧ s.MemoryOnly s2 := by
  obtain ⟨hm1, _, hio1⟩ := s.ioTurn_turned.quiet hio
  have writable : s.ioTurn.writable32 (a + 2) = true := by
    simpa only [State.writable32, State.writable16, State.isPresent, State.isProtected, State.ioTurn_cfg] using hw
  obtain ⟨s2, hs, hm2, hio2, only⟩ := State.store32_quiet (s.mem.word a &&& s.regA) hio1 writable
  have hl := State.load32_of_readable hr
  rw [hm1] at hl hm2
  refine ⟨s.ioTurn, s2, hl, hs, hm2, hio2, ?_⟩
  have turned := s.ioTurn_turned.memoryOnly
  unfold State.MemoryOnly at *
  rw [only, turned]

/-- Words that move one place up carry the first word, masked, all the way, and touch nothing below (R451, R452). -/
theorem State.moves_propagate {n : Nat} {s : State} {c : Addr} (hwf : s.mem.wf = true) (hio : s.ioWrites = [])
    (hn : (c + 2).toNat + 2 * n + 1 < 2 ^ 18) (hr : s.readable32 (c + 2) = true)
    (hd : ∀ k, k < n → s.inFast (c + 2 + BitVec.ofNat 18 (2 * (k + 1))) = true ∧
      s.writable32 (c + 2 + BitVec.ofNat 18 (2 * (k + 1))) = true) :
    ∃ t, s.moves true c (c + 2) n t ∧
      (∀ k, k < n → t.mem.word (c + 2 + BitVec.ofNat 18 (2 * (k + 1))) = s.mem.word (c + 2) &&& s.regA) ∧
      ∀ b : Addr, b.toNat < (c + 2).toNat + 2 → t.mem.half b = s.mem.half b := by
  induction n generalizing s c with
  | zero => exact ⟨s, rfl, nofun, fun _ _ => rfl⟩
  | succ n ih =>
    obtain ⟨hfast, hw⟩ := hd 0 (by omega)
    have first : c + 2 + BitVec.ofNat 18 (2 * (0 + 1)) = c + 2 + 2 := rfl
    rw [first] at hfast hw
    have even := State.isOdd_of_writable32 hw
    have two : (c + 2 + 2).toNat = (c + 2).toNat + 2 := toNat_add_even (k := 1) (by omega)
    have three : (c + 2 + 2 + 1).toNat = (c + 2).toNat + 3 := by rw [toNat_succ_of_even _ even, two]
    obtain ⟨s1, s2, hl, hs, hm2, hio2, only⟩ := State.moves_one_up hio hr hw
    have cfg2 : s2.cfg = s.cfg := by rw [only]
    have regA2 : s2.regA = s.regA := by rw [only]
    have writable2 : ∀ a, s2.writable32 a = s.writable32 a := fun a => by
      simp only [State.writable32, State.writable16, State.isPresent, State.isProtected, cfg2]
    have put : s2.mem.word (c + 2 + 2) = s.mem.word (c + 2) &&& s.regA :=
      hm2 ▸ (storedWord_putWord s.mem (c + 2 + 2) _ hwf even).1
    have rest : ∀ k, k < n → s2.inFast (c + 2 + 2 + BitVec.ofNat 18 (2 * (k + 1))) = true ∧
        s2.writable32 (c + 2 + 2 + BitVec.ofNat 18 (2 * (k + 1))) = true := fun k hk => by
      rw [add_two_add, writable2, State.inFast, cfg2]
      exact hd (k + 1) (by omega)
    obtain ⟨t, hmoves, hwords, hbelow⟩ := ih (hm2 ▸ Memory.wf_putWord _ _ _ hwf) hio2 (by omega)
      (State.readable32_of_writable32 ((writable2 _).trans hw)) rest
    refine ⟨t, ⟨hfast, _, s1, s2, hl, hs, hmoves⟩, fun k hk => ?_, fun b hb => ?_⟩
    · cases k with
      | zero => rw [first, Memory.word, hbelow _ (by omega), hbelow _ (by omega), ← put, Memory.word]
      | succ k => rw [← add_two_add, hwords k (by omega), regA2, put, BitVec.and_assoc, BitVec.and_self]
    · rw [hbelow b (by omega), hm2]
      exact Memory.half_putWord_ne _ _ (fun e => by rw [e] at hb; omega) fun e => by rw [e] at hb; omega

/-- Settles O55: both directions are one transfer. -/
theorem blockTransfersWordByWord : Obligations.BlockTransfersWordByWord := by
  unfold Obligations.BlockTransfersWordByWord
  intro s x1 j
  dsimp only
  have mmf : exec (.mmf x1 j) s = blockTransfer true s (s.wordCount x1 j) := rfl
  have mfm : exec (.mfm x1 j) s = blockTransfer false s (s.wordCount x1 j) := rfl
  rw [mmf, mfm, ← s.wordCount_eq x1 j]
  generalize s.wordCount x1 j = n
  refine ⟨fun t h => blockTransfer_completes h, fun k t hk h => blockTransfer_stops hk h rfl rfl,
    fun t h => blockTransfer_completes h, fun k t hk h => blockTransfer_stops hk h rfl rfl,
    fun hn => hn ▸ ⟨blockTransfer_zero _ s, blockTransfer_zero _ s⟩, fun hwf hio hcf hn hr hd => ?_⟩
  rw [hcf] at hn hd ⊢
  obtain ⟨t, hmoves, hwords, _⟩ := State.moves_propagate hwf hio hn hr hd
  exact ⟨_, blockTransfer_completes (hcf ▸ hmoves), hwords⟩

end Sys2Proof.Machine
end

section
/-! PROOFS. Rounding to a number of binary digits: the value that `roundTo` answers is one of the two normalized neighbours,
and it answers one wherever both are in range (20_memory.md R88, R90; 42_float.md R261, R262, R275). -/

namespace Sys2Proof.Machine

/-! ### Normalized mantissas -/

/-- A mantissa of `q` binary digits besides its sign, the first of them significant: normalized (20_memory.md R88). -/
def Normal (q : Nat) (m : Int) : Prop := (2 ^ q ≤ 2 * m ∧ m < 2 ^ q) ∨ (-2 ^ q ≤ m ∧ 2 * m < -2 ^ q)

/-- The value of a mantissa of `q` digits besides its sign with an exponent field, in or out of range (R88, R90). -/
def scaled (q : Nat) (m e : Int) : ℚ := m * (2 : ℚ) ^ (e - 128 - q)

theorem Normal.le {q : Nat} {m : Int} (h : Normal q m) : m < 2 ^ q := by
  have : (0 : Int) < 2 ^ q := by positivity
  rcases h with ⟨_, h⟩ | ⟨_, h⟩ <;> omega

theorem Normal.ge {q : Nat} {m : Int} (h : Normal q m) : -2 ^ q ≤ m := by
  have : (0 : Int) < 2 ^ q := by positivity
  rcases h with ⟨h, _⟩ | ⟨h, _⟩ <;> omega

theorem Normal.of_pos {q : Nat} {m : Int} (h : Normal q m) (hm : 0 < m) : 2 ^ q ≤ 2 * m := by
  have : (0 : Int) < 2 ^ q := by positivity
  rcases h with ⟨h, _⟩ | ⟨_, h⟩ <;> omega

theorem Normal.of_neg {q : Nat} {m : Int} (h : Normal q m) (hm : m < 0) : 2 * m < -2 ^ q := by
  have : (0 : Int) < 2 ^ q := by positivity
  rcases h with ⟨h, _⟩ | ⟨_, h⟩ <;> omega

theorem bitLength_spec {n : Nat} (h : n ≠ 0) : 2 ^ bitLength n ≤ 2 * n ∧ n < 2 ^ bitLength n := by
  rw [bitLength, if_neg h, Nat.pow_succ]
  have low := Nat.log2_self_le h
  have high := Nat.lt_log2_self (n := n)
  rw [Nat.pow_succ] at high
  omega

/-- `digits` counts them. -/
theorem normal_digits {m : Int} (h : m ≠ 0) : Normal (digits m) m := by
  unfold digits
  split
  · by_cases h1 : (-m - 1).toNat = 0
    · rw [h1]
      exact .inr ⟨by change -1 ≤ m; omega, by change 2 * m < -1; omega⟩
    · have spec := bitLength_spec h1
      zify at spec
      exact .inr (by omega)
  · have spec := bitLength_spec (n := m.toNat) (by omega)
    zify at spec
    exact .inl (by omega)

theorem digits_le {n : Nat} {m : Int} (h0 : m ≠ 0) (hl : -2 ^ n ≤ m) (hu : m < 2 ^ n) : digits m ≤ n := by
  by_contra hn
  have big : (2 : Int) ^ (n + 1) ≤ 2 ^ digits m := pow_le_pow_right₀ (by omega) (by omega)
  rw [pow_succ] at big
  rcases normal_digits h0 with ⟨h, _⟩ | ⟨_, h⟩ <;> omega

/-- Zeros appended. -/
theorem Normal.mul_pow {w : Nat} {m : Int} (h : Normal w m) (j : Nat) : Normal (w + j) (m * 2 ^ j) := by
  have hj : (0 : Int) < 2 ^ j := by positivity
  unfold Normal
  rw [pow_add]
  rcases h with ⟨h1, h2⟩ | ⟨h1, h2⟩
  · exact .inl ⟨by nlinarith, by nlinarith⟩
  · exact .inr ⟨by nlinarith, by nlinarith⟩

/-- Digits cut off, rounding down. -/
theorem Normal.div_pow {w : Nat} {m : Int} (hw : w ≠ 0) (j : Nat) (h : Normal (w + j) m) : Normal w (m / 2 ^ j) := by
  obtain ⟨w, rfl⟩ := Nat.exists_eq_succ_of_ne_zero hw
  have hj : (0 : Int) < 2 ^ j := by positivity
  unfold Normal at *
  rw [pow_add, Nat.succ_eq_add_one, pow_succ] at *
  rcases h with ⟨h1, h2⟩ | ⟨h1, h2⟩
  · refine .inl ⟨?_, Int.ediv_lt_of_lt_mul hj h2⟩
    have : 2 ^ w ≤ m / 2 ^ j := (Int.le_ediv_iff_mul_le hj).2 (by linarith)
    omega
  · refine .inr ⟨(Int.le_ediv_iff_mul_le hj).2 (by linarith), ?_⟩
    have : m / 2 ^ j < -2 ^ w := Int.ediv_lt_of_lt_mul hj (by linarith)
    omega

/-! ### Values -/

section
variable {q : Nat} {m n e f : Int}

theorem unit_pos (q : Nat) (e : Int) : (0 : ℚ) < 2 ^ (e - 128 - q) := by positivity

/-- A larger exponent at least doubles the unit. -/
theorem unit_double (h : f < e) : (2 : ℚ) * 2 ^ (f - 128 - q) ≤ 2 ^ (e - 128 - q) := by
  rw [← zpow_one_add₀ (by norm_num)]
  exact zpow_le_zpow_right₀ (by norm_num) (by omega)

theorem scaled_pos_iff : 0 < scaled q m e ↔ 0 < m := by
  rw [scaled, mul_pos_iff_of_pos_right (unit_pos q e)]
  exact_mod_cast Iff.rfl

theorem scaled_neg_iff : scaled q m e < 0 ↔ m < 0 := by
  rw [← neg_pos, scaled, ← neg_mul, mul_pos_iff_of_pos_right (unit_pos q e), neg_pos]
  exact_mod_cast Iff.rfl

/-- With a larger exponent a value is a whole number of the smaller units. -/
theorem scaled_of_le (h : e ≤ f) : scaled q m f = scaled q (m * 2 ^ (f - e).toNat) e := by
  rw [scaled, scaled, Int.cast_mul, Int.cast_pow, mul_assoc, ← zpow_natCast, Int.cast_ofNat,
    ← zpow_add₀ (by norm_num)]
  congr 2
  omega

/-- Values are ordered as their exponents, above zero. -/
theorem exponent_le_of_pos (hm : Normal q m) (hn : Normal q n) (hp : 0 < m) (h : scaled q m e ≤ scaled q n f) :
    e ≤ f := by
  by_contra hlt
  have low : (2 : ℚ) ^ q ≤ 2 * m := by exact_mod_cast hm.of_pos hp
  have high : (n : ℚ) < 2 ^ q := by exact_mod_cast hn.le
  have := unit_double (q := q) (not_le.1 hlt)
  have := mul_lt_mul_of_pos_right high (unit_pos q f)
  have := mul_le_mul_of_nonneg_right low (unit_pos q e).le
  unfold scaled at h
  nlinarith [unit_pos q f, show (0 : ℚ) < 2 ^ q by positivity]

/-- Values are ordered against their exponents, below zero. -/
theorem exponent_le_of_neg (hm : Normal q m) (hn : Normal q n) (hp : n < 0) (h : scaled q m e ≤ scaled q n f) :
    f ≤ e := by
  by_contra hlt
  have low : -(2 : ℚ) ^ q ≤ m := by exact_mod_cast hm.ge
  have high : 2 * (n : ℚ) < -2 ^ q := by exact_mod_cast hn.of_neg hp
  have := unit_double (q := q) (not_le.1 hlt)
  have := mul_lt_mul_of_pos_right high (unit_pos q f)
  have := mul_le_mul_of_nonneg_right low (unit_pos q e).le
  unfold scaled at h
  nlinarith [unit_pos q e, show (0 : ℚ) < 2 ^ q by positivity]

/-- Between a normalized value and the next of the same unit there is no normalized value of any exponent. -/
theorem no_normal_between (hq : q ≠ 0) (hm : Normal q m) (hn : Normal q n) :
    ¬(scaled q m e < scaled q n f ∧ scaled q n f < scaled q (m + 1) e) := by
  rintro ⟨h1, h2⟩
  rcases le_or_gt e f with hle | hlt
  · rw [scaled_of_le hle] at h1 h2
    have above : m < n * 2 ^ (f - e).toNat := by
      exact_mod_cast lt_of_mul_lt_mul_right h1 (unit_pos q e).le
    have below : n * 2 ^ (f - e).toNat < m + 1 := by
      exact_mod_cast lt_of_mul_lt_mul_right h2 (unit_pos q e).le
    omega
  · obtain ⟨q, rfl⟩ := Nat.exists_eq_succ_of_ne_zero hq
    have double := mul_le_mul_of_nonneg_left (unit_double (q := q + 1) hlt) (show (0 : ℚ) ≤ 2 ^ (q + 1) by positivity)
    unfold scaled at h1 h2
    rcases hm with ⟨hm, _⟩ | ⟨_, hm⟩
    · have low : (2 : ℚ) ^ (q + 1) ≤ 2 * m := by exact_mod_cast hm
      have high : (n : ℚ) ≤ 2 ^ (q + 1) := by exact_mod_cast hn.le.le
      have := mul_le_mul_of_nonneg_right high (unit_pos (q + 1) f).le
      have := mul_le_mul_of_nonneg_right low (unit_pos (q + 1) e).le
      push_cast at *
      linarith
    · have even : 2 * (m + 1) ≤ -2 ^ (q + 1) := by rw [Nat.succ_eq_add_one, pow_succ] at hm; rw [pow_succ]; omega
      have high : 2 * ((m + 1 : Int) : ℚ) ≤ -2 ^ (q + 1) := by exact_mod_cast even
      have low : -(2 : ℚ) ^ (q + 1) ≤ n := by exact_mod_cast hn.ge
      have := mul_le_mul_of_nonneg_right low (unit_pos (q + 1) f).le
      have := mul_le_mul_of_nonneg_right high (unit_pos (q + 1) e).le
      push_cast at *
      linarith

end

/-! ### What `roundTo` answers -/

theorem inRange_eq_some {m e : Int} {r : Int × Nat} :
    inRange m e = some r ↔ (0 ≤ e ∧ e ≤ 255) ∧ r = (m, e.toNat) := by
  unfold inRange
  split <;> simp_all [eq_comm]

/-- The value of a dyadic in the unit of `roundTo`'s exponent, where digits are to be appended. -/
theorem scaled_append {q w : Nat} (x : Dyadic) (h : w ≤ q) :
    scaled q (x.mant * 2 ^ (q - w)) (x.exp + w + 128) = x.toRat := by
  rw [scaled, Dyadic.toRat, Int.cast_mul, Int.cast_pow, mul_assoc, ← zpow_natCast, Int.cast_ofNat,
    ← zpow_add₀ (by norm_num)]
  congr 2
  omega

/-- The same where digits are to be cut off. -/
theorem scaled_cut {q w : Nat} (m k : Int) (h : q ≤ w) :
    scaled q m (k + w + 128) = (m * 2 ^ (w - q) : Int) * (2 : ℚ) ^ k := by
  rw [scaled, Int.cast_mul, Int.cast_pow, mul_assoc, ← zpow_natCast, Int.cast_ofNat, ← zpow_add₀ (by norm_num)]
  congr 2
  omega

/-- The value after a normalized one in its unit is normalized too, if need be with the neighbouring exponent (R261). -/
theorem renormalize_spec {q : Nat} {m : Int} (hq : q ≠ 0) (hm : Normal q m) (e : Int) :
    Normal q (renormalize (q + 1) (m + 1) e).1 ∧
      scaled q (renormalize (q + 1) (m + 1) e).1 (renormalize (q + 1) (m + 1) e).2 = scaled q (m + 1) e := by
  obtain ⟨q, rfl⟩ := Nat.exists_eq_succ_of_ne_zero hq
  have hp : (0 : Int) < 2 ^ q := by positivity
  unfold renormalize
  simp only [Nat.succ_eq_add_one, Nat.add_sub_cancel, show q + 1 + 1 - 2 = q by omega]
  split
  · rename_i h
    refine ⟨.inl ⟨by rw [pow_succ]; omega, by rw [pow_succ]; omega⟩, ?_⟩
    rw [h, scaled_of_le (show e ≤ e + 1 by omega), show (e + 1 - e).toNat = 1 by omega, pow_one, pow_succ]
  · split
    · rename_i h
      refine ⟨.inr ⟨le_refl _, by rw [pow_succ]; omega⟩, ?_⟩
      rw [h, scaled_of_le (show e - 1 ≤ e by omega), show (e - (e - 1)).toNat = 1 by omega, pow_one, pow_succ, neg_mul]
    · unfold Normal at *
      rw [Nat.succ_eq_add_one, pow_succ] at *
      exact ⟨by omega, rfl⟩

/-- Everything `roundTo` can do with a value that is not zero: the value has a normalized form, or it lies between two
normalized neighbours. -/
theorem roundTo_cases {q : Nat} {x : Dyadic} {up : Bool} (hq : q ≠ 0) (h0 : x.mant ≠ 0) :
    (∃ m e, Normal q m ∧ scaled q m e = x.toRat ∧ roundTo (q + 1) x up = inRange m e) ∨
      ∃ m e n f, Normal q m ∧ Normal q n ∧ scaled q m e < x.toRat ∧ x.toRat < scaled q n f ∧
        scaled q n f = scaled q (m + 1) e ∧
        roundTo (q + 1) x up = (inRange m e).bind fun l => (inRange n f).map fun h => if up then h else l := by
  have normal := normal_digits h0
  unfold roundTo
  simp only [Nat.add_sub_cancel]
  generalize digits x.mant = w at normal
  split
  · rename_i hw
    have appended := normal.mul_pow (q - w)
    rw [Nat.add_sub_cancel' hw] at appended
    exact .inl ⟨_, _, appended, scaled_append x hw, rfl⟩
  · rename_i hw
    have hle : q ≤ w := by omega
    have hd : (0 : Int) < 2 ^ (w - q) := by positivity
    have cut : Normal q (x.mant / 2 ^ (w - q)) := Normal.div_pow hq _ (by rwa [Nat.add_sub_cancel' hle])
    have value := Int.mul_ediv_add_emod x.mant (2 ^ (w - q))
    have unit : (0 : ℚ) < 2 ^ x.exp := by positivity
    split
    · rename_i hr
      refine .inl ⟨_, _, cut, ?_, rfl⟩
      rw [scaled_cut _ _ hle, Dyadic.toRat, show x.mant / 2 ^ (w - q) * 2 ^ (w - q) = x.mant by linarith]
    · rename_i hr
      obtain ⟨normal', value'⟩ := renormalize_spec hq cut (x.exp + w + 128)
      have rest := Int.emod_nonneg x.mant hd.ne'
      have rest' := Int.emod_lt_of_pos x.mant hd
      refine .inr ⟨_, _, _, _, cut, normal', ?_, ?_, value', ?_⟩
      · rw [scaled_cut _ _ hle, Dyadic.toRat]
        refine mul_lt_mul_of_pos_right ?_ unit
        have : x.mant / 2 ^ (w - q) * 2 ^ (w - q) < x.mant := by linarith [show 0 < x.mant % 2 ^ (w - q) by omega]
        exact_mod_cast this
      · rw [value', scaled_cut _ _ hle, Dyadic.toRat]
        refine mul_lt_mul_of_pos_right ?_ unit
        have : x.mant < (x.mant / 2 ^ (w - q) + 1) * 2 ^ (w - q) := by linarith
        exact_mod_cast this
      · cases inRange (x.mant / 2 ^ (w - q)) (x.exp + w + 128) with
        | none => rfl
        | some l =>
          dsimp only [Option.bind_some]
          cases inRange _ _ <;> rfl

/-- A normalized mantissa with an exponent field in range whose value is a rounding of `x`: no normalized value lies between
the two, or on `x` if it does not (R262). -/
structure Nearest (q : Nat) (x : ℚ) (m : Int) (e : Nat) : Prop where
  normal : Normal q m
  inRange : e ≤ 255
  nearest : ∀ n f : Int, Normal q n → ¬(x ≤ scaled q n f ∧ scaled q n f < scaled q m e) ∧
    ¬(scaled q m e < scaled q n f ∧ scaled q n f ≤ x)

/-- A normalized value is its own rounding. -/
theorem Nearest.of_eq {q : Nat} {x : ℚ} {m : Int} {e : Nat} (hm : Normal q m) (he : e ≤ 255) (h : scaled q m e = x) :
    Nearest q x m e :=
  ⟨hm, he, fun _ _ _ => ⟨fun ⟨h1, h2⟩ => by linarith, fun ⟨h1, h2⟩ => by linarith⟩⟩

section
variable {q : Nat} {x lo hi : ℚ} {m : Int} {e : Nat} (hm : Normal q m) (he : e ≤ 255) (hl : lo < x) (hu : x < hi)
  (gap : ∀ n f : Int, Normal q n → ¬(lo < scaled q n f ∧ scaled q n f < hi))
include hm he hl hu gap

/-- The normalized value below is a rounding if none lies between it and one above. -/
theorem Nearest.of_below (h : scaled q m e = lo) : Nearest q x m e :=
  ⟨hm, he, fun n f hn => ⟨fun ⟨h1, h2⟩ => by linarith, fun ⟨h1, h2⟩ => gap n f hn ⟨by linarith, by linarith⟩⟩⟩

/-- The normalized value above is a rounding if none lies between it and one below. -/
theorem Nearest.of_above (h : scaled q m e = hi) : Nearest q x m e :=
  ⟨hm, he, fun n f hn => ⟨fun ⟨h1, h2⟩ => gap n f hn ⟨by linarith, by linarith⟩, fun ⟨h1, h2⟩ => by linarith⟩⟩

end

theorem roundTo_nearest {q : Nat} {x : Dyadic} {up : Bool} {r : Int × Nat} (hq : q ≠ 0) (h0 : x.mant ≠ 0)
    (h : roundTo (q + 1) x up = some r) : Nearest q x.toRat r.1 r.2 := by
  have field : ∀ {m e : Int} {r : Int × Nat}, inRange m e = some r → r.1 = m ∧ (r.2 : Int) = e ∧ r.2 ≤ 255 := by
    intro m e r hr
    obtain ⟨⟨h1, h2⟩, rfl⟩ := inRange_eq_some.1 hr
    exact ⟨rfl, Int.toNat_of_nonneg h1, by dsimp only; omega⟩
  rcases roundTo_cases (up := up) hq h0 with ⟨m, e, hm, hx, hr⟩ | ⟨m, e, n, f, hm, hn, hl, hu, next, hr⟩
  · obtain ⟨rfl, rfl, he⟩ := field (hr ▸ h)
    exact .of_eq hm he hx
  · rw [hr] at h
    obtain ⟨l, hle, h⟩ := Option.bind_eq_some_iff.1 h
    obtain ⟨g, hge, rfl⟩ := Option.map_eq_some_iff.1 h
    obtain ⟨rfl, rfl, he⟩ := field hle
    obtain ⟨rfl, rfl, hf⟩ := field hge
    have gap : ∀ k i, Normal q k → ¬(scaled q l.1 l.2 < scaled q k i ∧ scaled q k i < scaled q g.1 g.2) :=
      fun k i hk => next ▸ no_normal_between hq hm hk
    cases up with
    | false => exact .of_below hm he hl hu gap rfl
    | true => exact .of_above hn hf hl hu gap rfl

/-- A value lies between two normalized ones of one sign with exponent fields in range (R275). -/
def Between (q : Nat) (x : ℚ) : Prop :=
  ∃ m n : Int, ∃ e f : Nat, Normal q m ∧ Normal q n ∧ e ≤ 255 ∧ f ≤ 255 ∧ scaled q m e ≤ x ∧ x ≤ scaled q n f ∧
    (0 < m ∨ n < 0)

/-- A normalized value between two of one sign has its exponent between theirs. -/
theorem inRange_of_between {q : Nat} {m n k : Int} {e f : Nat} {i : Int} (hm : Normal q m) (hn : Normal q n)
    (hk : Normal q k) (he : e ≤ 255) (hf : f ≤ 255) (h1 : scaled q m e ≤ scaled q k i)
    (h2 : scaled q k i ≤ scaled q n f) (hs : 0 < m ∨ n < 0) : inRange k i = some (k, i.toNat) := by
  refine inRange_eq_some.2 ⟨?_, rfl⟩
  rcases hs with hpos | hneg
  · have pos : 0 < k := scaled_pos_iff.1 ((scaled_pos_iff.2 hpos).trans_le h1)
    have := exponent_le_of_pos hm hk hpos h1
    have := exponent_le_of_pos hk hn pos h2
    omega
  · have neg : k < 0 := scaled_neg_iff.1 (h2.trans_lt (scaled_neg_iff.2 hneg))
    have := exponent_le_of_neg hk hn hneg h2
    have := exponent_le_of_neg hm hk neg h1
    omega

/-- Wherever a value is in range, `roundTo` answers. -/
theorem roundTo_of_between {q : Nat} {x : Dyadic} {up : Bool} (hq : q ≠ 0) (h0 : x.mant ≠ 0)
    (h : Between q x.toRat) : ∃ r, roundTo (q + 1) x up = some r := by
  obtain ⟨a, b, i, j, ha, hb, hi, hj, h1, h2, hs⟩ := h
  rcases roundTo_cases (up := up) hq h0 with ⟨m, e, hm, hx, hr⟩ | ⟨m, e, n, f, hm, hn, hl, hu, next, hr⟩
  · exact ⟨_, hr.trans (inRange_of_between ha hb hm hi hj (hx ▸ h1) (hx ▸ h2) hs)⟩
  · have below : scaled q a i ≤ scaled q m e := not_lt.1 fun h =>
      no_normal_between hq hm ha ⟨h, next ▸ h1.trans_lt hu⟩
    have above : scaled q n f ≤ scaled q b j := not_lt.1 fun h =>
      no_normal_between hq hm hb ⟨hl.trans_le h2, next ▸ h⟩
    rw [hr, inRange_of_between ha hb hm hi hj below (hl.le.trans h2) hs,
      inRange_of_between ha hb hn hi hj (h1.trans hu.le) above hs]
    exact ⟨_, rfl⟩

end Sys2Proof.Machine
end

section
/-! PROOFS. The words of the two floating point formats: their mantissas, exponents and values, and the rounding to them
(20_memory.md R88, R90; 42_float.md R262, R275, R277). -/

namespace Sys2Proof.Machine

/-! ### The values of dyadics -/

theorem Dyadic.toRat_eq_zero {x : Dyadic} : x.toRat = 0 ↔ x.mant = 0 := by
  rw [Dyadic.toRat, mul_eq_zero, Int.cast_eq_zero]
  exact or_iff_left (by positivity)

theorem Dyadic.toRat_add (x y : Dyadic) : (x.add y).toRat = x.toRat + y.toRat := by
  have aligned : ∀ {m a e : Int}, e ≤ a → (m : ℚ) * 2 ^ (a - e).toNat * 2 ^ e = m * 2 ^ a := by
    intro m a e h
    rw [mul_assoc, ← zpow_natCast, ← zpow_add₀ (by norm_num)]
    congr 2
    omega
  rw [Dyadic.add, Dyadic.toRat]
  push_cast
  rw [add_mul, aligned (by omega), aligned (by omega), Dyadic.toRat, Dyadic.toRat]

theorem Dyadic.toRat_neg (x : Dyadic) : x.neg.toRat = -x.toRat := by
  rw [Dyadic.neg, Dyadic.toRat, Dyadic.toRat]
  push_cast
  ring

theorem Dyadic.toRat_mul (x y : Dyadic) : (x.mul y).toRat = x.toRat * y.toRat := by
  rw [Dyadic.mul, Dyadic.toRat, Dyadic.toRat, Dyadic.toRat, zpow_add₀ (by norm_num)]
  push_cast
  ring

/-! ### Fields of a word -/

/-- A mantissa is normalized if its first two bits differ (R88). -/
theorem normal_toInt_iff {n k : Nat} (v : BitVec n) (hn : n = k + 2) :
    Normal (k + 1) v.toInt ↔ (v.getLsbD k != v.getLsbD (k + 1)) = true := by
  subst hn
  have low := Nat.div_add_mod v.toNat (2 ^ k)
  have rest := Nat.mod_lt v.toNat (show 0 < 2 ^ k by positivity)
  have four : v.toNat / 2 ^ k < 4 := by
    rw [Nat.div_lt_iff_lt_mul (by positivity)]
    exact v.isLt.trans_eq (by ring)
  rw [BitVec.toInt_eq_toNat_cond, Normal, BitVec.getLsbD, BitVec.getLsbD, Nat.testBit_eq_decide_div_mod_eq,
    Nat.testBit_eq_decide_div_mod_eq, show (2 : Nat) ^ (k + 1) = 2 ^ k * 2 from pow_succ 2 k,
    ← Nat.div_div_eq_div_mul, show 2 ^ (k + 2) = 4 * 2 ^ k by ring,
    show (2 : Int) ^ (k + 1) = 2 * (2 ^ k : Nat) by push_cast; ring]
  generalize v.toNat / 2 ^ k = n at *
  generalize v.toNat % 2 ^ k = r at *
  generalize 2 ^ k = p at *
  interval_cases n <;> simp <;> omega

/-- A field of a field. -/
theorem extractLsb'_extractLsb' {w a n b k : Nat} (v : BitVec w) (h : b + k ≤ n) :
    (v.extractLsb' a n).extractLsb' b k = v.extractLsb' (a + b) k := by
  ext i hi
  simp [show b + i < n by omega, Nat.add_assoc]

section
variable {q : Nat} (v : BitVec (1 + q)) (e : BitVec 8)

/-- The mantissa of a word packed from its fields. -/
theorem packed_mantissa :
    (v.extractLsb' q 1 ++ e ++ v.extractLsb' 0 q).extractLsb' (q + 8) 1 ++
      (v.extractLsb' q 1 ++ e ++ v.extractLsb' 0 q).extractLsb' 0 q = v := by
  rw [BitVec.extractLsb'_append_eq_of_le (by omega), BitVec.extractLsb'_append_eq_of_le (by omega),
    BitVec.extractLsb'_append_eq_right, show q + 8 - q - 8 = 0 by omega, BitVec.extractLsb'_eq_self]
  exact BitVec.extractLsb'_append_extractLsb'

/-- The exponent field of a word packed from its fields. -/
theorem packed_exponent : (v.extractLsb' q 1 ++ e ++ v.extractLsb' 0 q).extractLsb' q 8 = e := by
  rw [BitVec.extractLsb'_append_eq_of_le (by omega), Nat.sub_self]
  exact BitVec.extractLsb'_append_eq_right

end

theorem toInt_ofInt_of_normal {q : Nat} {m : Int} (h : Normal q m) : (BitVec.ofInt (1 + q) m).toInt = m := by
  have := h.le
  have := h.ge
  rw [BitVec.toInt_ofInt]
  exact Int.bmod_eq_of_le (by rw [pow_add]; push_cast; omega) (by rw [pow_add]; push_cast; omega)

/-! ### Single precision -/

theorem normalized32_iff (w : Word32) : normalized32 w = true ↔ Normal 23 (mant32 w) := by
  rw [mant32, normal_toInt_iff (k := 22) _ rfl, normalized32, BitVec.getLsbD_append, BitVec.getLsbD_append]
  simp

theorem fval32_eq (w : Word32) : fval32 w = scaled 23 (mant32 w) (exp32 w).toNat := rfl

theorem toRat_value32 (w : Word32) : (value32 w).toRat = fval32 w := by
  rw [value32, Dyadic.toRat, fval32, show (((exp32 w).toNat : Int) - 128 - 23) = (exp32 w).toNat - 151 by ring]

theorem mant32_pack32 {m : Int} (e : Nat) (h : Normal 23 m) : mant32 (pack32 m e) = m :=
  (congrArg BitVec.toInt (packed_mantissa (q := 23) (BitVec.ofInt 24 m) (BitVec.ofNat 8 e))).trans
    (toInt_ofInt_of_normal h)

theorem exp32_pack32 (m : Int) {e : Nat} (h : e ≤ 255) : (exp32 (pack32 m e)).toNat = e := by
  rw [show exp32 (pack32 m e) = BitVec.ofNat 8 e from packed_exponent (q := 23) (BitVec.ofInt 24 m) _,
    BitVec.toNat_ofNat]
  omega

theorem between_of_inRange32 {x : ℚ} (h : inRange32 x) : Between 23 x := by
  obtain ⟨u, v, hu, hv, h1, h2, hs⟩ := h
  refine ⟨mant32 u, mant32 v, (exp32 u).toNat, (exp32 v).toNat, (normalized32_iff u).1 hu, (normalized32_iff v).1 hv,
    by omega, by omega, h1, h2, ?_⟩
  rwa [fval32_eq, fval32_eq, scaled_pos_iff, scaled_neg_iff] at hs

/-- Zero is in no range: no two normalized numbers of one sign have it between them. -/
theorem Between.ne_zero {q : Nat} {x : ℚ} (h : Between q x) : x ≠ 0 := by
  rintro rfl
  obtain ⟨m, n, e, f, _, _, _, _, h1, h2, hs⟩ := h
  rcases hs with hm | hn
  · exact absurd (scaled_pos_iff.2 hm) (not_lt.2 h1)
  · exact absurd (scaled_neg_iff.2 hn) (not_lt.2 h2)

/-- A single precision word whose fields are a rounding rounds, whatever stands for zero. -/
theorem rounds32_of_nearest {zero w : Word32} {x : ℚ} (hx : x ≠ 0)
    (h : Between 23 x → Nearest 23 x (mant32 w) (exp32 w).toNat) : rounds32 zero x w := by
  refine ⟨fun h0 => absurd h0 hx, fun hr => ?_⟩
  obtain ⟨normal, _, nearest⟩ := h (between_of_inRange32 hr)
  exact ⟨(normalized32_iff w).2 normal, fun v hv => nearest _ _ ((normalized32_iff v).1 hv)⟩

/-- FZERO32 for zero, else the packed rounding, else a free word (R262, R275, R277). -/
theorem rounds32_round32 (s : State) (x : Dyadic) (up : Bool) (free : Word32) :
    rounds32 s.zero32 x.toRat ((s.round32 x up).getD free) := by
  unfold State.round32
  by_cases h0 : x.mant = 0
  · rw [if_pos h0]
    exact ⟨fun _ => rfl, fun hr => absurd (Dyadic.toRat_eq_zero.2 h0) (between_of_inRange32 hr).ne_zero⟩
  · rw [if_neg h0]
    refine rounds32_of_nearest (mt Dyadic.toRat_eq_zero.1 h0) fun hb => ?_
    obtain ⟨r, hr⟩ := roundTo_of_between (up := up) (by omega) h0 hb
    have nearest := roundTo_nearest (by omega) h0 hr
    rw [hr, Option.map_some, Option.getD_some, mant32_pack32 _ nearest.normal, exp32_pack32 _ nearest.inRange]
    exact nearest

/-! ### Double precision -/

theorem normalized64_iff (d : BitVec 64) : normalized64 d = true ↔ Normal 47 (mant64 d) := by
  rw [mant64, normal_toInt_iff (k := 46) _ rfl, normalized64, BitVec.getLsbD_append, BitVec.getLsbD_append]
  simp

theorem fval64_eq (d : BitVec 64) : fval64 d = scaled 47 (mant64 d) (exp64 d).toNat := rfl

theorem toRat_value64 (d : BitVec 64) : (value64 d).toRat = fval64 d := by
  rw [value64, Dyadic.toRat, fval64, show (((exp64 d).toNat : Int) - 128 - 47) = (exp64 d).toNat - 175 by ring]

/-- The mantissa is a field of the 56 bits that are the number (R90). -/
theorem mant64_eq (d : BitVec 64) :
    mant64 d = ((d.extractLsb' 8 56).extractLsb' 55 1 ++ (d.extractLsb' 8 56).extractLsb' 0 47 : BitVec 48).toInt := by
  rw [mant64, extractLsb'_extractLsb' d (by omega), extractLsb'_extractLsb' d (by omega)]

theorem exp64_eq (d : BitVec 64) : exp64 d = (d.extractLsb' 8 56).extractLsb' 47 8 := by
  rw [exp64, extractLsb'_extractLsb' d (by omega)]

theorem mant64_of_pack56 {d : BitVec 64} {m : Int} {e : Nat} (hd : d.extractLsb' 8 56 = pack56 m e)
    (h : Normal 47 m) : mant64 d = m := by
  rw [mant64_eq, hd]
  exact (congrArg BitVec.toInt (packed_mantissa (q := 47) (BitVec.ofInt 48 m) (BitVec.ofNat 8 e))).trans
    (toInt_ofInt_of_normal h)

theorem exp64_of_pack56 {d : BitVec 64} {m : Int} {e : Nat} (hd : d.extractLsb' 8 56 = pack56 m e) (h : e ≤ 255) :
    (exp64 d).toNat = e := by
  rw [exp64_eq, hd,
    show (pack56 m e).extractLsb' 47 8 = BitVec.ofNat 8 e from packed_exponent (q := 47) (BitVec.ofInt 48 m) _,
    BitVec.toNat_ofNat]
  omega

theorem between_of_inRange64 {x : ℚ} (h : inRange64 x) : Between 47 x := by
  obtain ⟨u, v, hu, hv, h1, h2, hs⟩ := h
  refine ⟨mant64 u, mant64 v, (exp64 u).toNat, (exp64 v).toNat, (normalized64_iff u).1 hu, (normalized64_iff v).1 hv,
    by omega, by omega, h1, h2, ?_⟩
  rwa [fval64_eq, fval64_eq, scaled_pos_iff, scaled_neg_iff] at hs

theorem rounds64_of_nearest {zero : BitVec 56} {d : BitVec 64} {x : ℚ} (hx : x ≠ 0)
    (h : Between 47 x → Nearest 47 x (mant64 d) (exp64 d).toNat) : rounds64 zero x d := by
  refine ⟨fun h0 => absurd h0 hx, fun hr => ?_⟩
  obtain ⟨normal, _, nearest⟩ := h (between_of_inRange64 hr)
  exact ⟨(normalized64_iff d).2 normal, fun v hv => nearest _ _ ((normalized64_iff v).1 hv)⟩

/-- FZERO64 for zero, else the packed rounding, else anything (R262, R275, R277); the last eight bits are free (D16). -/
theorem rounds64_round56 {s : State} {x : Dyadic} {up : Bool} {d : BitVec 64}
    (hd : ∀ v, s.round56 x up = some v → d.extractLsb' 8 56 = v) : rounds64 s.zero56 x.toRat d := by
  unfold State.round56 at hd
  by_cases h0 : x.mant = 0
  · rw [if_pos h0] at hd
    exact ⟨fun _ => hd _ rfl, fun hr => absurd (Dyadic.toRat_eq_zero.2 h0) (between_of_inRange64 hr).ne_zero⟩
  · rw [if_neg h0] at hd
    refine rounds64_of_nearest (mt Dyadic.toRat_eq_zero.1 h0) fun hb => ?_
    obtain ⟨r, hr⟩ := roundTo_of_between (up := up) (by omega) h0 hb
    have nearest := roundTo_nearest (by omega) h0 hr
    have packed := hd _ (congrArg (Option.map _) hr)
    rw [mant64_of_pack56 packed nearest.normal, exp64_of_pack56 packed nearest.inRange]
    exact nearest

end Sys2Proof.Machine
end

section
/-! PROOFS. Floating point addition and subtraction (42_float.md R260 to R277). -/

namespace Sys2Proof.Machine

/-! ### The floating zeros -/

/-- Mantissa, exponent field and value of FZERO32 (R277). -/
theorem State.zero32_fields (s : State) :
    mant32 s.zero32 = 0 ∧ exp32 s.zero32 = s.cfg.fzeroExp32 ∧ fval32 s.zero32 = 0 := by
  have mant : mant32 s.zero32 = 0 := congrArg BitVec.toInt (packed_mantissa (q := 23) 0#24 s.cfg.fzeroExp32)
  exact ⟨mant, packed_exponent (q := 23) 0#24 _, by rw [fval32, mant, Int.cast_zero, zero_mul]⟩

/-- Mantissa, exponent field and value of FZERO64 (R277). -/
theorem State.zero56_fields (s : State) :
    mant64 (s.zero56 ++ 0#8) = 0 ∧ exp64 (s.zero56 ++ 0#8) = s.cfg.fzeroExp64 ∧ fval64 (s.zero56 ++ 0#8) = 0 := by
  have number : (s.zero56 ++ 0#8).extractLsb' 8 56 = s.zero56 := BitVec.extractLsb'_append_eq_left
  have mant : mant64 (s.zero56 ++ 0#8) = 0 := by
    rw [mant64_eq, number]
    exact congrArg BitVec.toInt (packed_mantissa (q := 47) 0#48 s.cfg.fzeroExp64)
  refine ⟨mant, ?_, by rw [fval64, mant, Int.cast_zero, zero_mul]⟩
  rw [exp64_eq, number]
  exact packed_exponent (q := 47) 0#48 _

/-! ### What the operations leave -/

section
variable (s : State) (x : Dyadic) (up : Bool) (w : Word32) (d : BitVec 64)

theorem State.setSingle_round32 : ∃ a n,
    s.setSingle (s.round32 x up) = { s with regA := a, draws := n } ∧ rounds32 s.zero32 x.toRat a :=
  ⟨_, _, rfl, rounds32_round32 s x up _⟩

theorem adfOp_rounds : ∃ a n,
    adfOp s w = { s with regA := a, draws := n } ∧ rounds32 s.zero32 (fval32 s.regA + fval32 w) a := by
  rw [← toRat_value32, ← toRat_value32, ← Dyadic.toRat_add]
  exact s.setSingle_round32 _ _

theorem sbfOp_rounds : ∃ a n,
    sbfOp s w = { s with regA := a, draws := n } ∧ rounds32 s.zero32 (fval32 s.regA - fval32 w) a := by
  rw [← toRat_value32, ← toRat_value32, sub_eq_add_neg, ← Dyadic.toRat_neg, ← Dyadic.toRat_add]
  exact s.setSingle_round32 _ _

/-- A double precision result is in A and B, but for the last eight bits of B (D16). -/
theorem State.setDouble_eq (v : Option (BitVec 56)) : ∃ (d : BitVec 64) (n : Nat),
    s.setDouble v = { s with regA := d.extractLsb' 32 32, regB := d.extractLsb' 0 32, draws := n } ∧
      ∀ x, v = some x → d.extractLsb' 8 56 = x := by
  refine ⟨(s.setDouble v).regA ++ (s.setDouble v).regB, s.draws + 2, ?_, ?_⟩
  · rw [BitVec.extractLsb'_append_eq_left, BitVec.extractLsb'_append_eq_right]
    rfl
  · rintro x rfl
    show (x.extractLsb' 24 32 ++
      (x.extractLsb' 0 24 ++ (Config.draw (s.draws + 1)).extractLsb' 0 8)).extractLsb' 8 56 = x
    generalize (Config.draw (s.draws + 1)).extractLsb' 0 8 = tail
    ext i hi
    simp only [BitVec.getElem_extractLsb', BitVec.getLsbD_append, BitVec.getLsbD_extractLsb']
    by_cases h : i < 24
    · simp [h, show 8 + i < 32 by omega, BitVec.getLsbD_eq_getElem hi]
    · simp [show ¬ 8 + i < 32 by omega, show 8 + i - 32 < 32 by omega, show 24 + (8 + i - 32) = i by omega,
        BitVec.getLsbD_eq_getElem hi]

theorem State.setDouble_round56 : ∃ (d : BitVec 64) (n : Nat),
    s.setDouble (s.round56 x up) = { s with regA := d.extractLsb' 32 32, regB := d.extractLsb' 0 32, draws := n } ∧
      rounds64 s.zero56 x.toRat d := by
  obtain ⟨d, n, hs, hd⟩ := s.setDouble_eq (s.round56 x up)
  exact ⟨d, n, hs, rounds64_round56 hd⟩

theorem afdOp_rounds : ∃ (v : BitVec 64) (n : Nat),
    afdOp s d = { s with regA := v.extractLsb' 32 32, regB := v.extractLsb' 0 32, draws := n } ∧
      rounds64 s.zero56 (fval64 (s.regA ++ s.regB) + fval64 d) v := by
  rw [← toRat_value64, ← toRat_value64, ← Dyadic.toRat_add]
  exact s.setDouble_round56 _ _

theorem sfdOp_rounds : ∃ (v : BitVec 64) (n : Nat),
    sfdOp s d = { s with regA := v.extractLsb' 32 32, regB := v.extractLsb' 0 32, draws := n } ∧
      rounds64 s.zero56 (fval64 (s.regA ++ s.regB) - fval64 d) v := by
  rw [← toRat_value64, ← toRat_value64, sub_eq_add_neg, ← Dyadic.toRat_neg, ← Dyadic.toRat_add]
  exact s.setDouble_round56 _ _

end

/-! ### From the operand to the next state -/

section
variable {s u : State} {r : Ref} {ref : RefAccess} {k : Nat} {w : BitVec k}
  {load : State → Addr → Except Fault (BitVec k × State)} {op : State → BitVec k → State}
  (hr : ref = .ok (r, s)) (hi : r.imm = false) (hl : load s r.addr = .ok (w, u)) (hpc : u.pc = s.pc) (len : Addr)
include hr hi hl hpc

/-- An instruction whose operation leaves a word in A. -/
theorem floatRegister_single {P : Word32 → Prop}
    (hop : ∃ a n, op (u.setOar r.addr) w = { u.setOar r.addr with regA := a, draws := n } ∧ P a) :
    ∃ a n, floatRegister load op ref len = .next { u with
      regA := a, oar := r.addr, pc := s.pc + len, draws := n } ∧ P a := by
  obtain ⟨a, n, ho, ha⟩ := hop
  refine ⟨a, n, floatRegister_next.2 ⟨r, s, w, u, hr, hi, hl, ?_⟩, ha⟩
  rw [ho, ← hpc]
  rfl

/-- An instruction whose operation leaves a double word in A and B. -/
theorem floatRegister_double {P : BitVec 64 → Prop}
    (hop : ∃ (d : BitVec 64) (n : Nat), op (u.setOar r.addr) w =
      { u.setOar r.addr with regA := d.extractLsb' 32 32, regB := d.extractLsb' 0 32, draws := n } ∧ P d) :
    ∃ (d : BitVec 64) (n : Nat), floatRegister load op ref len = .next { u with
      regA := d.extractLsb' 32 32, regB := d.extractLsb' 0 32, oar := r.addr, pc := s.pc + len, draws := n } ∧ P d := by
  obtain ⟨d, n, ho, hd⟩ := hop
  refine ⟨d, n, floatRegister_next.2 ⟨r, s, w, u, hr, hi, hl, ?_⟩, hd⟩
  rw [ho, ← hpc]
  rfl

end

/-- A double word read, the I/O unit's turn before either half (R66, R68). -/
theorem State.load64_of_readable {s : State} {a : Addr} (hl : s.readable32 a = true)
    (hl2 : s.readable32 (a + 2) = true) :
    s.load64 a = .ok (s.ioTurn.mem.word a ++ s.ioTurn.ioTurn.mem.word (a + 2), s.ioTurn.ioTurn) :=
  State.load64_ok.2 ⟨_, _, State.read32_of_readable (by simpa [State.readable32] using hl),
    State.read32_of_readable (by simpa [State.readable32] using hl2), rfl, rfl⟩

section
variable {s : State} {r : Ref} {ref : RefAccess}
  (hr : ref = .ok (r, s)) (hi : r.imm = false) (hl : s.readable32 r.addr = true) (len : Addr)
include hr hi hl

/-- ADF, in either form (R263). -/
theorem adf_completes : ∃ a n, floatRegister State.load32 adfOp ref len = .next { s.ioTurn with
      regA := a, oar := r.addr, pc := s.pc + len, draws := n } ∧
    rounds32 s.zero32 (fval32 s.regA + fval32 (s.ioTurn.mem.word r.addr)) a :=
  floatRegister_single hr hi (State.load32_of_readable hl) s.ioTurn_pc len
    (by simpa [State.setOar, State.zero32] using adfOp_rounds (s.ioTurn.setOar r.addr) (s.ioTurn.mem.word r.addr))

/-- SBF, in either form (R265). -/
theorem sbf_completes : ∃ a n, floatRegister State.load32 sbfOp ref len = .next { s.ioTurn with
      regA := a, oar := r.addr, pc := s.pc + len, draws := n } ∧
    rounds32 s.zero32 (fval32 s.regA - fval32 (s.ioTurn.mem.word r.addr)) a :=
  floatRegister_single hr hi (State.load32_of_readable hl) s.ioTurn_pc len
    (by simpa [State.setOar, State.zero32] using sbfOp_rounds (s.ioTurn.setOar r.addr) (s.ioTurn.mem.word r.addr))

variable (hl2 : s.readable32 (r.addr + 2) = true)
include hl2

/-- AFD, in either form (R271). -/
theorem afd_completes : ∃ (d : BitVec 64) (n : Nat), floatRegister State.load64 afdOp ref len =
      .next { s.ioTurn.ioTurn with
        regA := d.extractLsb' 32 32, regB := d.extractLsb' 0 32, oar := r.addr, pc := s.pc + len, draws := n } ∧
    rounds64 s.zero56 (fval64 (s.regA ++ s.regB) +
      fval64 (s.ioTurn.mem.word r.addr ++ s.ioTurn.ioTurn.mem.word (r.addr + 2))) d :=
  floatRegister_double hr hi (State.load64_of_readable hl hl2) (by simp) len
    (by simpa [State.setOar, State.zero56] using afdOp_rounds (s.ioTurn.ioTurn.setOar r.addr) _)

/-- SFD, in either form (R273). -/
theorem sfd_completes : ∃ (d : BitVec 64) (n : Nat), floatRegister State.load64 sfdOp ref len =
      .next { s.ioTurn.ioTurn with
        regA := d.extractLsb' 32 32, regB := d.extractLsb' 0 32, oar := r.addr, pc := s.pc + len, draws := n } ∧
    rounds64 s.zero56 (fval64 (s.regA ++ s.regB) -
      fval64 (s.ioTurn.mem.word r.addr ++ s.ioTurn.ioTurn.mem.word (r.addr + 2))) d :=
  floatRegister_double hr hi (State.load64_of_readable hl hl2) (by simp) len
    (by simpa [State.setOar, State.zero56] using sfdOp_rounds (s.ioTurn.ioTurn.setOar r.addr) _)

end

/-- Settles O37: `roundTo` answers wherever the exact value is in range and then has the value itself or one of its two
normalized neighbours; a zero is packed as the floating zero. -/
theorem floatAddSubtract : Obligations.FloatAddSubtract := by
  unfold Obligations.FloatAddSubtract
  intro s r
  obtain ⟨mant, exp, val⟩ := s.zero32_fields
  refine ⟨⟨mant, exp, val, s.zero56_fields⟩, fun hi hl => ?_⟩
  exact ⟨fun x1 m7 hr => adf_completes (congrArg s.direct hr) hi hl 1,
    fun t x1 x2 i m m16 hr => adf_completes hr hi hl 2,
    fun x1 m7 hr => sbf_completes (congrArg s.direct hr) hi hl 1,
    fun t x1 x2 i m m16 hr => sbf_completes hr hi hl 2,
    fun hl2 => ⟨fun x1 m7 hr => afd_completes (congrArg s.direct hr) hi hl 1 hl2,
      fun t x1 x2 i m m16 hr => afd_completes hr hi hl 2 hl2,
      fun x1 m7 hr => sfd_completes (congrArg s.direct hr) hi hl 1 hl2,
      fun t x1 x2 i m m16 hr => sfd_completes hr hi hl 2 hl2⟩⟩

end Sys2Proof.Machine
end

section
/-! PROOFS. Floating point multiplication is exact (42_float.md R267, R276). -/

namespace Sys2Proof.Machine

/-- A value whose mantissa fits is not rounded: digits are appended to it. -/
theorem roundTo_exact {q : Nat} {x : Dyadic} {up : Bool} {r : Int × Nat} (hw : digits x.mant ≤ q)
    (h : roundTo (q + 1) x up = some r) :
    r.1 = x.mant * 2 ^ (q - digits x.mant) ∧ scaled q r.1 r.2 = x.toRat := by
  have appended := scaled_append x hw
  unfold roundTo at h
  simp only [Nat.add_sub_cancel, if_pos hw] at h
  obtain ⟨⟨he, _⟩, rfl⟩ := inRange_eq_some.1 h
  exact ⟨rfl, by rwa [Int.toNat_of_nonneg he]⟩

/-- The product of two normalized mantissas of 23 digits has at most 46 digits, but for the largest one. -/
theorem mul_mantissas {a b : Int} (ha : Normal 23 a) (hb : Normal 23 b) (h0 : a * b ≠ 0) :
    digits (a * b) ≤ 46 ∨ a * b = 2 ^ 46 := by
  have upper : |a| ≤ 2 ^ 23 := abs_le.2 ⟨ha.ge, ha.le.le⟩
  have upper' : |b| ≤ 2 ^ 23 := abs_le.2 ⟨hb.ge, hb.le.le⟩
  have bound : |a * b| ≤ 2 ^ 46 := by
    rw [abs_mul]
    exact (mul_le_mul upper upper' (abs_nonneg b) (by positivity)).trans (by norm_num)
  obtain ⟨lower, upper⟩ := abs_le.1 bound
  rcases upper.lt_or_eq with h | h
  · exact .inl (digits_le h0 lower h)
  · exact .inr h

/-- Bit 0 tells whether a two's complement number is even. -/
theorem even_toInt_iff {n : Nat} (v : BitVec (n + 1)) : 2 ∣ v.toInt ↔ v.getLsbD 0 = false := by
  rw [BitVec.getLsbD, Nat.testBit_zero, BitVec.toInt_eq_toNat_cond, pow_succ]
  split <;> simp <;> omega

/-- The last bit of a mantissa is the last of the 56 bits that are the number (R90). -/
theorem even_mant64_iff (d : BitVec 64) : 2 ∣ mant64 d ↔ d.getLsbD 8 = false := by
  rw [mant64, even_toInt_iff, BitVec.getLsbD_append]
  simp

theorem toRat_factor32 (w : Word32) : (factor32 w).toRat = fvalNormal32 w := by
  unfold factor32 fvalNormal32
  split
  · exact toRat_value32 w
  · simp [Dyadic.toRat]

/-- An operand of MLF that is not zero is normalized (R276). -/
theorem factor32_normal {w : Word32} (h : (factor32 w).mant ≠ 0) : Normal 23 (factor32 w).mant := by
  unfold factor32 at *
  split at h
  · rename_i hn
    rw [if_pos hn]
    exact (normalized32_iff w).1 hn
  · exact absurd rfl h

/-- A product of two operands of MLF has an even mantissa of 47 digits. -/
theorem roundTo_product {v w : Word32} {up : Bool} {r : Int × Nat}
    (h0 : ((factor32 v).mul (factor32 w)).mant ≠ 0)
    (h : roundTo 48 ((factor32 v).mul (factor32 w)) up = some r) :
    2 ∣ r.1 ∧ scaled 47 r.1 r.2 = ((factor32 v).mul (factor32 w)).toRat := by
  obtain ⟨hv, hw⟩ := mul_ne_zero_iff.1 (show (factor32 v).mant * (factor32 w).mant ≠ 0 from h0)
  rcases mul_mantissas (factor32_normal hv) (factor32_normal hw) h0 with few | largest
  · have few : digits ((factor32 v).mul (factor32 w)).mant ≤ 46 := few
    obtain ⟨hm, value⟩ := roundTo_exact (few.trans (by decide)) h
    exact ⟨hm ▸ Dvd.dvd.mul_left (dvd_pow_self 2 (by omega)) _, value⟩
  · have fits : digits ((factor32 v).mul (factor32 w)).mant ≤ 47 :=
      digits_le h0 (by change -2 ^ 47 ≤ _ * _; omega) (by change _ * _ < _; omega)
    obtain ⟨hm, value⟩ := roundTo_exact fits h
    exact ⟨hm ▸ Dvd.dvd.mul_right (show 2 ∣ (factor32 v).mant * (factor32 w).mant by omega) _, value⟩

theorem mlfOp_exact (s : State) (w : Word32) : ∃ (d : BitVec 64) (n : Nat),
    mlfOp s w = { s with regA := d.extractLsb' 32 32, regB := d.extractLsb' 0 32, draws := n } ∧
      rounds64 s.zero56 (fvalNormal32 s.regA * fvalNormal32 w) d ∧
      (inRange64 (fvalNormal32 s.regA * fvalNormal32 w) →
        fval64 d = fvalNormal32 s.regA * fvalNormal32 w ∧ d.getLsbD 8 = false) := by
  rw [← toRat_factor32, ← toRat_factor32, ← Dyadic.toRat_mul]
  obtain ⟨d, n, hs, hd⟩ := s.setDouble_eq (s.round56 ((factor32 s.regA).mul (factor32 w)) false)
  refine ⟨d, n, hs, rounds64_round56 hd, fun hr => ?_⟩
  have between := between_of_inRange64 hr
  have h0 := mt Dyadic.toRat_eq_zero.2 between.ne_zero
  obtain ⟨q, hq⟩ := roundTo_of_between (up := false) (by decide) h0 between
  obtain ⟨normal, field, _⟩ := roundTo_nearest (by decide) h0 hq
  obtain ⟨even, value⟩ := roundTo_product h0 hq
  have packed : d.extractLsb' 8 56 = pack56 q.1 q.2 := hd _ (by rw [State.round56, if_neg h0, hq, Option.map_some])
  rw [← even_mant64_iff, fval64_eq, mant64_of_pack56 packed normal, exp64_of_pack56 packed field]
  exact ⟨value, even⟩

/-- MLF, in either form (R267). -/
theorem mlf_completes {s : State} {r : Ref} {ref : RefAccess} (hr : ref = .ok (r, s)) (hi : r.imm = false)
    (hl : s.readable32 r.addr = true) (len : Addr) : ∃ (d : BitVec 64) (n : Nat),
    floatRegister State.load32 mlfOp ref len = .next { s.ioTurn with
        regA := d.extractLsb' 32 32, regB := d.extractLsb' 0 32, oar := r.addr, pc := s.pc + len, draws := n } ∧
      rounds64 s.zero56 (fvalNormal32 s.regA * fvalNormal32 (s.ioTurn.mem.word r.addr)) d ∧
      (inRange64 (fvalNormal32 s.regA * fvalNormal32 (s.ioTurn.mem.word r.addr)) →
        fval64 d = fvalNormal32 s.regA * fvalNormal32 (s.ioTurn.mem.word r.addr) ∧ d.getLsbD 8 = false) :=
  floatRegister_double hr hi (State.load32_of_readable hl) s.ioTurn_pc len
    (by simpa [State.setOar, State.zero56] using mlfOp_exact (s.ioTurn.setOar r.addr) (s.ioTurn.mem.word r.addr))

/-- Settles O38: the product of two normalized mantissas fits the 47 digits of a double precision one with a digit to
spare, so that `roundTo` only appends digits. -/
theorem floatMultiply : Obligations.FloatMultiply := by
  unfold Obligations.FloatMultiply
  exact fun s r hi hl => ⟨fun x1 m7 hr => mlf_completes (congrArg s.direct hr) hi hl 1,
    fun t x1 x2 i m h m16 hr => mlf_completes hr hi hl 2⟩

end Sys2Proof.Machine
end

section
/-! PROOFS. The decoder and the encoder: each word that the encoder writes is read back, the decoder answers well-formed
instructions alone, and it refuses exactly the unassigned operation codes (30_encoding.md R100 to R108, R120 to R124;
47_nonmem.md R416). -/

namespace Sys2Proof

/-! ### The groups of operation codes that have a decoder of their own -/

section
variable {h : Half} {w : Word32}

theorem decodeShort_nonMemory (op : h.extractLsb' 11 5 = 0#5) : decodeShort h = decodeNonMemory h := by
  unfold decodeShort
  rw [op]
  rfl

theorem decodeShort_shift (op : h.extractLsb' 11 5 = 1#5) : decodeShort h = .ok (decodeShift h) := by
  unfold decodeShort
  rw [op]
  rfl

theorem decodeShort_io (op : h.extractLsb' 11 5 = 9#5) : decodeShort h = .ok (decodeShortIo h) := by
  unfold decodeShort
  rw [op]
  rfl

theorem decodeShort_jump (op : h.extractLsb' 11 5 = 12#5) : decodeShort h = .ok (decodeShortJump h) := by
  unfold decodeShort
  rw [op]
  rfl

theorem decodeLong_io (op : w.extractLsb' 27 5 = 9#5) : decodeLong w = .ok (decodeLongIo w) := by
  unfold decodeLong
  rw [op]
  rfl

theorem decodeLong_jump (op : w.extractLsb' 27 5 = 12#5) : decodeLong w = decodeLongJump w := by
  unfold decodeLong
  rw [op]
  rfl

end

/-! ### Every encoded word is read back -/

theorem ne_of_notReturnX1 {x1 : BitVec 3} (h : notReturnX1 x1 = true) : x1 ≠ 7#3 := bne_iff_ne.1 h

/-- Settles O1, format by format: the word's fields are those of the instruction. In a row with a return to memory variant
the word's X1 is 7 for the variant alone, so the last cases are the rows where X1 decides. -/
theorem decodeInvertsEncode : Obligations.DecodeInvertsEncode := by
  unfold Obligations.DecodeInvertsEncode
  intro i rest hwf
  cases i
  case emi | dpi | dmi | epi | hlt | setf | rstf | cfx | cxf | eab | shm | rhm | lxa | nop =>
    refine decode_nonMemory _ _ _ _ fun h op sec f => (decodeShort_nonMemory op).trans ?_
    unfold decodeNonMemory
    rw [sec, f]
    rfl
  case slld | slcd | sll | srld | srad | srcd | sra | src =>
    refine decode_shift _ _ _ _ _ _ _ fun h op s0 x1 s1 s2 j => (decodeShort_shift op).trans ?_
    rw [decodeShift, s0, x1, s1, s2, j]
  case jru | jrn | jrg | jrl =>
    refine decode_shortJump _ _ _ _ _ fun h op c1 c0 p m7 => (decodeShort_jump op).trans ?_
    rw [decodeShortJump, c1, c0, p, m7]
    rfl
  case js n m18 =>
    refine decode_longJump _ _ _ _ _ fun w op sel sec m18 x1 _ _ => (decodeLong_jump op).trans ?_
    unfold decodeLongJump
    rw [sec, sel, m18, x1, BitVec.extractLsb'_append_eq_left]
    have even : (n ++ 0#1).getLsbD 0 = false := by rw [BitVec.getLsbD_append]; rfl
    exact if_neg (by rw [even]; exact Bool.false_ne_true)
  case jgw sw m18 =>
    refine decode_longJump _ _ _ _ _ fun w op sel sec m18 _ low high => (decodeLong_jump op).trans ?_
    unfold decodeLongJump
    rw [sec, m18, low, high, BitVec.extractLsb'_append_eq_left, BitVec.extractLsb'_append_eq_right]
    rfl
  case jgf | jgs | jgu | jan | jag | jal =>
    refine decode_longJump _ _ _ _ _ fun w op sel sec m18 _ _ _ => (decodeLong_jump op).trans ?_
    unfold decodeLongJump
    rw [sec, sel, m18]
    rfl
  case doa | dia =>
    refine decode_shortIo _ _ _ _ _ _ fun h op c dc d k => (decodeShort_io op).trans ?_
    rw [decodeShortIo, c, dc, d, k]
    rfl
  case dom | dim =>
    refine decode_longIo _ _ _ _ _ _ _ _ fun w op c dc i d k m16 => (decodeLong_io op).trans ?_
    rw [decodeLongIo, c, dc, i, d, k, m16]
    rfl
  case mfm | mmf =>
    refine decode_block _ _ _ _ _ fun h op sec x1 j => ?_
    unfold decodeShort
    rw [op, sec, x1, j]
    rfl
  case aduS | adlS | sbuS | sblS | mulS | dvdS | adfS | sbfS | mlfS | dvfS | afdS | sfdS | andS | lorS | exoS =>
    refine decode_shortMem _ _ _ _ _ fun h op x1 m7 _ => ?_
    unfold decodeShort
    rw [op, x1, m7]
    exact congrArg Except.ok (if_neg (ne_of_notReturnX1 hwf))
  case ldaS | ldbS | staS | stbS | stxS | ldxS | laeS | sthS | rtaS | samS | icnS | imnS | adurS | adlrS | sburS | sblrS |
      mulrS | dvdrS | adfrS | sbfrS | mlfrS | dvfrS | afdrS | sfdrS | andrS | lorrS | exorS =>
    refine decode_shortMem _ _ _ _ _ fun h op x1 m7 _ => ?_
    unfold decodeShort
    rw [op, x1, m7]
    rfl
  case ptr => cases hwf
  all_goals
    refine decode_longMem _ _ _ _ _ _ _ _ _ rfl fun w op x1 x2 i m h m16 => ?_
    unfold decodeLong
    rw [op]
    refine congrArg Except.ok ?_
    simp only [x1, x2, i, m, h, m16, Bool.false_eq_true, if_false, if_true]
  case aduL | aduhL | adlL | adlhL | sbuL | sbuhL | sblL | sblhL | mulL | mulhL | dvdL | dvdhL | adfL | sbfL | mlfL |
      dvfL | afdL | sfdL | andL | lorL | exoL =>
    exact if_neg (ne_of_notReturnX1 hwf)
  all_goals rfl

/-! ### What the decoder answers and what it refuses -/

/-- The decoder answers an instruction, a well-formed one. -/
def Decoded (x : Except DecodeError Instr) : Prop := ∃ i, WellFormed i = true ∧ x = .ok i

theorem Decoded.not_error {x : Except DecodeError Instr} (hx : Decoded x) : ¬∃ e, x = .error e := by
  obtain ⟨i, _, rfl⟩ := hx
  simp

theorem Decoded.wellFormed {x : Except DecodeError Instr} {i : Instr} (hx : Decoded x) (h : x = .ok i) :
    WellFormed i = true := by
  obtain ⟨j, hj, rfl⟩ := hx
  cases h
  exact hj

theorem decoded_ok {i : Instr} (h : WellFormed i = true) : Decoded (.ok i) := ⟨i, h, rfl⟩

/-- X1 = 7 names the return to memory variant, any other X1 the plain form (30_encoding.md R117, R123). -/
theorem wellFormed_variant {x1 : BitVec 3} {variant plain : Instr} (hv : WellFormed variant = true)
    (hp : x1 ≠ 7#3 → WellFormed plain = true) : WellFormed (if x1 = 7#3 then variant else plain) = true := by
  by_cases h : x1 = 7#3
  · rw [if_pos h]
    exact hv
  · rw [if_neg h]
    exact hp h

theorem wellFormed_either {c : Bool} {i j : Instr} (hi : WellFormed i = true) (hj : WellFormed j = true) :
    WellFormed (if c then i else j) = true := by
  cases c
  · exact hj
  · exact hi

theorem wellFormed_decodeShift (h : Half) : WellFormed (decodeShift h) = true := by
  unfold decodeShift
  split <;> rfl

theorem wellFormed_decodeShortJump (h : Half) : WellFormed (decodeShortJump h) = true := by
  unfold decodeShortJump
  split <;> rfl

/-- The non-memory codes without an instruction (47_nonmem.md R416). -/
def unassignedNonMemory (h : Half) : Prop := h.extractLsb' 7 4 = 0#4 ∨ h.extractLsb' 7 4 = 15#4

theorem decodeNonMemory_refuses {h : Half} (hu : unassignedNonMemory h) : ∃ e, decodeNonMemory h = .error e := by
  unfold decodeNonMemory
  rcases hu with sec | sec <;> exact ⟨_, by rw [sec]; rfl⟩

theorem decodeNonMemory_decoded {h : Half} (hu : ¬unassignedNonMemory h) : Decoded (decodeNonMemory h) := by
  have range := (h.extractLsb' 7 4).isLt
  have ne_first : (h.extractLsb' 7 4).toNat ≠ 0 := fun code => hu (.inl (BitVec.eq_of_toNat_eq code))
  have ne_last : (h.extractLsb' 7 4).toNat ≠ 15 := fun code => hu (.inr (BitVec.eq_of_toNat_eq code))
  unfold decodeNonMemory
  dsimp only
  generalize (h.extractLsb' 7 4).toNat = n at *
  have low : 1 ≤ n := by omega
  have high : n ≤ 14 := by omega
  interval_cases n <;> exact decoded_ok rfl

/-- Every other group of short words is full (R120). The decoder's arms are split in the order of the operation codes, from
`h_1` for code 0 on. -/
theorem decodeShort_decoded {h : Half} (op : h.extractLsb' 11 5 ≠ 0#5) : Decoded (decodeShort h) := by
  unfold decodeShort
  split
  case h_1 heq => exact absurd (BitVec.eq_of_toNat_eq heq) op
  case h_2 => exact decoded_ok (wellFormed_decodeShift h)
  case h_6 | h_10 => exact decoded_ok (wellFormed_either rfl rfl)
  case h_13 => exact decoded_ok (wellFormed_decodeShortJump h)
  case h_3 | h_4 | h_5 | h_7 | h_8 | h_9 | h_11 | h_12 | h_14 | h_15 | h_16 | h_18 => exact decoded_ok rfl
  all_goals exact decoded_ok (wellFormed_variant rfl bne_iff_ne.2)

/-- The rows of the table of long jumps (R106). -/
def assignedLongJump (w : Word32) : Prop :=
  (w.extractLsb' 18 4 = 0b0001#4 ∧ w.getLsbD 22 = false) ∨ w.extractLsb' 18 4 = 0b0010#4 ∨
    w.extractLsb' 18 4 = 0b0100#4 ∨ (w.extractLsb' 18 4 = 0b0110#4 ∧ w.extractLsb' 22 2 = 0b00#2) ∨
    w.extractLsb' 18 8 = 0b00001100#8 ∨ w.extractLsb' 18 8 = 0b01001000#8 ∨
    w.extractLsb' 18 8 = 0b10001000#8 ∨ w.extractLsb' 18 8 = 0b11001000#8

/-- Bits 6 to 13 of a long jump are its selector and its secondary code (R106). -/
theorem longJump_code (w : Word32) (c : BitVec 8) :
    w.extractLsb' 18 8 = c ↔ w.extractLsb' 18 4 = c.extractLsb' 0 4 ∧ w.extractLsb' 22 4 = c.extractLsb' 4 4 := by
  have join : w.extractLsb' 22 4 ++ w.extractLsb' 18 4 = w.extractLsb' 18 8 :=
    BitVec.extractLsb'_append_extractLsb'_eq_extractLsb' rfl
  constructor
  · rintro rfl
    rw [← join, BitVec.extractLsb'_append_eq_left, BitVec.extractLsb'_append_eq_right]
    exact ⟨rfl, rfl⟩
  · rintro ⟨low, high⟩
    rw [← join, low, high, BitVec.extractLsb'_append_extractLsb'_eq_extractLsb' (by rfl)]
    exact BitVec.extractLsb'_eq_self

/-- The rows in the selector and the secondary code, as the decoder tests them. -/
theorem assignedLongJump_iff (w : Word32) : assignedLongJump w ↔
    (w.extractLsb' 18 4 = 1#4 ∧ (w.extractLsb' 22 4).getLsbD 0 = false) ∨ w.extractLsb' 18 4 = 2#4 ∨
      w.extractLsb' 18 4 = 4#4 ∨ (w.extractLsb' 18 4 = 6#4 ∧ w.extractLsb' 22 2 = 0#2) ∨
      (w.extractLsb' 18 4 = 12#4 ∧ w.extractLsb' 22 4 = 0#4) ∨ (w.extractLsb' 18 4 = 8#4 ∧ w.extractLsb' 22 4 = 4#4) ∨
      (w.extractLsb' 18 4 = 8#4 ∧ w.extractLsb' 22 4 = 8#4) ∨ (w.extractLsb' 18 4 = 8#4 ∧ w.extractLsb' 22 4 = 12#4) := by
  have even : (w.extractLsb' 22 4).getLsbD 0 = w.getLsbD 22 := by simp
  rw [assignedLongJump, longJump_code, longJump_code, longJump_code, longJump_code, even]
  rfl

theorem decodeLongJump_decoded {w : Word32} (ha : assignedLongJump w) : Decoded (decodeLongJump w) := by
  unfold decodeLongJump
  dsimp only
  rcases (assignedLongJump_iff w).1 ha with ⟨sec, h⟩ | sec | sec | ⟨sec, h⟩ | ⟨sec, h⟩ | ⟨sec, h⟩ | ⟨sec, h⟩ | ⟨sec, h⟩
  case inr.inl | inr.inr.inl =>
    rw [sec]
    exact decoded_ok rfl
  all_goals
    rw [sec, h]
    exact decoded_ok rfl

theorem assignedLongJump_of_ok {w : Word32} {i : Instr} (h : decodeLongJump w = .ok i) : assignedLongJump w := by
  rw [assignedLongJump_iff]
  unfold decodeLongJump at h
  dsimp only at h
  split at h
  case h_1 sec =>
    split_ifs at h with odd
    exact .inl ⟨BitVec.eq_of_toNat_eq sec, eq_false_of_ne_true odd⟩
  case h_2 sec => exact .inr (.inl (BitVec.eq_of_toNat_eq sec))
  case h_3 sec => exact .inr (.inr (.inl (BitVec.eq_of_toNat_eq sec)))
  case h_4 sec =>
    split_ifs at h with low
    exact .inr (.inr (.inr (.inl ⟨BitVec.eq_of_toNat_eq sec, low⟩)))
  case h_5 sec =>
    have sec : w.extractLsb' 18 4 = 8#4 := BitVec.eq_of_toNat_eq sec
    split_ifs at h with jan jag jal
    · simp [sec, jan]
    · simp [sec, jag]
    · simp [sec, jal]
  case h_6 sec =>
    split_ifs at h with sel
    exact .inr (.inr (.inr (.inr (.inl ⟨BitVec.eq_of_toNat_eq sec, sel⟩))))
  case h_7 => cases h

theorem decodeLongJump_refuses {w : Word32} (ha : ¬assignedLongJump w) : ∃ e, decodeLongJump w = .error e := by
  cases h : decodeLongJump w with
  | error e => exact ⟨e, rfl⟩
  | ok i => exact absurd (assignedLongJump_of_ok h) ha

/-- Every other group of long words is full (R120), its arms split as those of the short words. -/
theorem decodeLong_decoded {w : Word32} (hl : isLong (w.extractLsb' 16 16) = true) (op : w.extractLsb' 27 5 ≠ 12#5) :
    Decoded (decodeLong w) := by
  simp only [isLong_high, Bool.and_eq_true, bne_iff_ne] at hl
  obtain ⟨⟨⟨op0, op1⟩, op5⟩, _⟩ := hl
  unfold decodeLong
  split
  case h_1 code => exact absurd (BitVec.eq_of_toNat_eq code) op0
  case h_2 code => exact absurd (BitVec.eq_of_toNat_eq code) op1
  case h_6 code => exact absurd (BitVec.eq_of_toNat_eq code) op5
  case h_13 code => exact absurd (BitVec.eq_of_toNat_eq code) op
  case h_3 | h_5 | h_8 | h_10 | h_11 | h_14 | h_16 => exact decoded_ok (wellFormed_either rfl rfl)
  case h_4 | h_7 | h_9 | h_12 | h_15 | h_18 => exact decoded_ok rfl
  case h_17 | h_19 | h_23 | h_25 | h_26 => exact decoded_ok (wellFormed_variant rfl bne_iff_ne.2)
  case h_20 | h_24 | h_28 | h_32 => exact decoded_ok (wellFormed_either rfl (wellFormed_variant rfl bne_iff_ne.2))
  all_goals
    exact decoded_ok (wellFormed_variant (wellFormed_either rfl rfl) fun hx =>
      wellFormed_either (bne_iff_ne.2 hx) (bne_iff_ne.2 hx))

/-- What a short word decodes to is well formed. -/
theorem wellFormed_of_decodeShort {h : Half} {i : Instr} (hi : decodeShort h = .ok i) : WellFormed i = true := by
  by_cases op : h.extractLsb' 11 5 = 0#5
  · rw [decodeShort_nonMemory op] at hi
    by_cases hu : unassignedNonMemory h
    · obtain ⟨e, he⟩ := decodeNonMemory_refuses hu
      cases he.symm.trans hi
    · exact (decodeNonMemory_decoded hu).wellFormed hi
  · exact (decodeShort_decoded op).wellFormed hi

/-- What a long word decodes to is well formed. -/
theorem wellFormed_of_decodeLong {w : Word32} {i : Instr} (hl : isLong (w.extractLsb' 16 16) = true)
    (hi : decodeLong w = .ok i) : WellFormed i = true := by
  by_cases op : w.extractLsb' 27 5 = 12#5
  · rw [decodeLong_jump op] at hi
    exact (decodeLongJump_decoded (assignedLongJump_of_ok hi)).wellFormed hi
  · exact (decodeLong_decoded hl op).wellFormed hi

theorem map_ok {α β : Type} {x : Except DecodeError α} {f : α → β} {b : β} :
    x.map f = .ok b ↔ ∃ a, x = .ok a ∧ f a = b := by
  cases x <;> simp [Except.map]

theorem map_error {α β : Type} {x : Except DecodeError α} {f : α → β} :
    (∃ e, x.map f = .error e) ↔ ∃ e, x = .error e := by
  cases x <;> simp [Except.map]

/-- Settles O2: the length rule chooses the decoder of short or of long words (R100). -/
theorem decodedIsWellFormed : Obligations.DecodedIsWellFormed := by
  unfold Obligations.DecodedIsWellFormed
  intro bytes rest i h
  unfold decode at h
  split at h
  case h_2 => cases h
  case h_1 b0 b1 more =>
    cases hl : isLong (b0 ++ b1) with
    | false =>
      simp only [hl, Bool.false_eq_true, if_false, map_ok, Prod.mk.injEq] at h
      obtain ⟨j, hj, rfl, rfl⟩ := h
      exact ⟨wellFormed_of_decodeShort hj, b0, b1, more, rfl, by rw [hl]; rfl⟩
    | true =>
      simp only [hl, if_true] at h
      split at h
      case h_2 => cases h
      case h_1 b2 b3 more =>
        obtain ⟨j, hj, hpair⟩ := map_ok.1 h
        cases hpair
        refine ⟨wellFormed_of_decodeLong ?_ hj, b0, b1, _, rfl, ?_⟩
        · rw [BitVec.extractLsb'_append_eq_left, hl]
        · rw [hl]
          exact ⟨b2, b3, rfl⟩

/-- Settles O3: the codes without an instruction are in the groups of non-memory words and of long jumps. -/
theorem unassignedEncodings : Obligations.UnassignedEncodings := by
  unfold Obligations.UnassignedEncodings
  refine ⟨fun h hl => ?_, fun w hl => ?_⟩
  · rw [← List.append_nil (halfBytes h), decode_short h [] hl, map_error]
    constructor
    · intro he
      have op : h.extractLsb' 11 5 = 0#5 := by_contra fun op => (decodeShort_decoded op).not_error he
      rw [decodeShort_nonMemory op] at he
      exact ⟨op, by_contra fun hu => (decodeNonMemory_decoded hu).not_error he⟩
    · rintro ⟨op, hu⟩
      rw [decodeShort_nonMemory op]
      exact decodeNonMemory_refuses hu
  · rw [← List.append_nil (Code.long w).bytes, decode_long w [] hl, map_error]
    constructor
    · intro he
      have op : w.extractLsb' 27 5 = 12#5 := by_contra fun op => (decodeLong_decoded hl op).not_error he
      rw [decodeLong_jump op] at he
      exact ⟨op, fun ha => (decodeLongJump_decoded ha).not_error he⟩
    · rintro ⟨op, ha⟩
      rw [decodeLong_jump op]
      exact decodeLongJump_refuses ha

end Sys2Proof
end

section
/-! PROOFS. Effective addresses: the address sums, indirect chains and the pointer at a subroutine's head (30_encoding.md
R109 to R117, R119; 46_jump.md R382, R383; 92_eei_decisions.md D35). -/

namespace Sys2Proof.Machine

/-! ### Address sums -/

theorem toNat_append_add {n k : Nat} (a : BitVec n) (b : BitVec k) : (a ++ b).toNat = a.toNat * 2 ^ k + b.toNat := by
  rw [BitVec.toNat_append, ← Nat.shiftLeft_add_eq_or_of_lt b.isLt, Nat.shiftLeft_eq]

section
variable (s : State)

/-- The ten bit short address, its bits weighed (30_encoding.md R112). -/
theorem State.shortField_toNat (m7 : BitVec 7) : (s.shortField m7).toNat =
    512 * (s.srBit 4).toNat + 256 * (s.srBit 3).toNat + 128 * (s.srBit 2).toNat + m7.toNat := by
  simp only [State.shortField, toNat_append_add, BitVec.toNat_ofBool]
  omega

/-- With SHORT_PIVOT at 16384 the short unindexed addresses run from 15360 in fullword mode and from 15872 in halfword mode
(R112, 92_eei_decisions.md D3). -/
theorem State.shortUnindexed_toNat (hp : s.cfg.shortPivot = 16384#18) (m7 : BitVec 7) : (s.shortUnindexed m7).toNat =
    if s.srBit 5 then 15872 + (s.shortField m7).toNat else 15360 + 2 * (s.shortField m7).toNat := by
  have range := (s.shortField m7).isLt
  unfold State.shortUnindexed
  rw [hp]
  split
  · simp only [BitVec.toNat_add, BitVec.toNat_sub, BitVec.toNat_mul, BitVec.truncate_eq_setWidth, BitVec.toNat_setWidth,
      BitVec.toNat_ofNat]
    omega
  · simp only [BitVec.toNat_add, BitVec.toNat_sub, BitVec.toNat_mul, BitVec.truncate_eq_setWidth, BitVec.toNat_setWidth,
      BitVec.toNat_ofNat]
    omega

theorem State.shortIndexed_scale_one (hs : s.cfg.shortIndexedScale = 1#18) (m7 : BitVec 7) (x : Addr) :
    s.shortIndexed m7 x = m7.zeroExtend 18 + x := by
  rw [State.shortIndexed, hs, BitVec.one_mul]

end

/-- Settles O19: the short unindexed address is computed as a number, the others are sums as they stand. -/
theorem addressesAndReferences : Obligations.AddressesAndReferences := by
  unfold Obligations.AddressesAndReferences
  intro s x1 x2 m h m7 m16 w hp hs
  refine ⟨⟨s.shortUnindexed m7, ?_, rfl, rfl, fun h6 => ?_⟩, fun hx => ?_, fun h6 => ?_,
    fun desig => ⟨rfl, rfl, rfl⟩, rfl⟩
  · rw [s.shortUnindexed_toNat hp, s.shortField_toNat]
  · rw [State.shortReturnRef, h6, if_pos rfl]
  · have indexed : x1 ≠ 0#3 := hx
    rw [State.shortRef, if_neg indexed, State.idx1, if_neg indexed, s.shortIndexed_scale_one hs]
  · rw [State.shortReturnRef, h6, if_neg Bool.false_ne_true, s.shortIndexed_scale_one hs]
    rfl

/-! ### Indirect chains -/

theorem State.Turned.pointerAddr_eq {s t : State} (h : s.Turned t) (w : Word32) : t.pointerAddr w = s.pointerAddr w := by
  simp only [State.pointerAddr, State.idx1, State.idx2, h.xr_eq]

section
variable {s t : State} {desig : Bool} {ea : Addr}

/-- Of a word with I = 1 and M = 0 the bit H counts only where it is a halfword designator (30_encoding.md R114). -/
theorem State.chain_without_half {h : Bool} (hd : (desig && h) = false) (n : Nat) :
    s.chain desig n ea true false h = s.chain desig n ea true false false := by
  cases n with
  | zero => rfl
  | succ n => simp only [State.chain, Bool.and_comm h, hd, Bool.false_and]

/-- A word with I = 0 ends the chain. -/
theorem State.chain_end (n : Nat) (m h : Bool) : s.chain desig n ea false m h = .ok (⟨ea, m, h⟩, s) := by
  cases n <;> rfl

/-- A pointer word that can be read continues the chain. -/
theorem State.chain_read {w : Word32} (hl : s.load32 ea = .ok (w, t)) (n : Nat) :
    s.chain desig (n + 1) ea true false false =
      t.chain desig n (s.pointerAddr w) (w.getLsbD 18) (w.getLsbD 17) (w.getLsbD 16) := by
  rw [State.chain, bind_of_ok _ hl]
  rfl

/-- Each pointer word with I = 1 and M = 0 takes one of the levels that are left. -/
theorem State.chain_of_leads {vs : List Word32} {e : Addr} (h : s.leads desig ea vs e t) (n : Nat) :
    s.chain desig (vs.length + n) ea true false false = t.chain desig n e true false false := by
  induction vs generalizing s ea with
  | nil =>
    obtain ⟨rfl, rfl⟩ := h
    rw [List.length_nil, Nat.zero_add]
  | cons v vs ih =>
    obtain ⟨indirect, direct, noHalf, s1, hl, rest⟩ := h
    rw [List.length_cons, Nat.add_right_comm, State.chain_read hl, indirect, direct, State.chain_without_half noHalf,
      ih rest]

theorem State.leads_turned {vs : List Word32} {e : Addr} (h : s.leads desig ea vs e t) : s.Turned t := by
  induction vs generalizing s ea with
  | nil =>
    obtain ⟨rfl, rfl⟩ := h
    exact .refl _
  | cons v vs ih =>
    obtain ⟨_, _, _, s1, hl, rest⟩ := h
    exact (State.load32_turned hl).trans (ih rest)

theorem State.pointers_turned {vs : List Word32} {w : Word32} (h : s.pointers desig ea vs w t) : s.Turned t := by
  obtain ⟨e, u, hleads, hl, _⟩ := h
  exact (State.leads_turned hleads).trans (State.load32_turned hl)

/-- A chain that ends within its levels answers what its last word says. -/
theorem State.chain_of_pointers {vs : List Word32} {w : Word32} (h : s.pointers desig ea vs w t) {n : Nat}
    (hn : vs.length + 1 ≤ n) :
    s.chain desig n ea true false false = .ok (⟨s.pointerAddr w, w.getLsbD 17, w.getLsbD 16⟩, t) := by
  obtain ⟨e, u, hleads, hl, direct⟩ := h
  obtain ⟨k, rfl⟩ := Nat.exists_eq_add_of_le hn
  rw [Nat.add_assoc, State.chain_of_leads hleads, Nat.add_comm 1, State.chain_read hl, direct,
    (State.leads_turned hleads).pointerAddr_eq, State.chain_end]

/-- A chain that uses up its levels stops. -/
theorem State.chain_too_long {vs : List Word32} {e : Addr} (h : s.leads desig ea vs e t) {n : Nat}
    (hn : vs.length = n) : s.chain desig n ea true false false = .error .tooManyLevels :=
  hn ▸ State.chain_of_leads h 0

/-- A chain stops where a word within its levels cannot be read. -/
theorem State.chain_unreadable {vs : List Word32} {e : Addr} {f : Fault} (h : s.leads desig ea vs e t)
    (hf : t.load32 e = .error f) {n : Nat} (hn : vs.length < n) :
    s.chain desig n ea true false false = .error f := by
  obtain ⟨k, rfl⟩ := Nat.exists_eq_add_of_lt hn
  rw [Nat.add_assoc, State.chain_of_leads h]
  exact bind_error _ hf

end

/-- Settles O20: the chain of 16 levels, as its words are read one by one. -/
theorem indirectChain : Obligations.IndirectChain := by
  unfold Obligations.IndirectChain
  intro s t desig h index m16 vs hd
  simp only [State.longRef, State.chain_without_half hd]
  refine ⟨fun w hw hn => State.chain_of_pointers hw hn, fun e he => ⟨fun hn => State.chain_too_long he hn, fun f hn hf => ?_⟩⟩
  exact State.chain_unreadable he hf hn

/-! ### The jump to a subroutine -/

/-- The word at the subroutine's head is the first of the 16 levels (46_jump.md R383). -/
theorem State.pointerTarget_eq (s : State) (ea : Addr) : s.pointerTarget ea = (do
    let (r, t) ← s.chain false 16 ea true false false
    if r.imm then .error .immediateOnStore else .ok (r.addr, t)) := by
  rw [State.pointerTarget]
  cases hl : s.load32 ea with
  | error f =>
    rw [State.chain, hl]
    rfl
  | ok p =>
    rw [State.chain_read hl]
    rfl

section
variable {s t : State} {ea : Addr} {vs : List Word32} {w : Word32}

theorem State.pointerTarget_of_pointers (h : s.pointers false ea vs w t) (hn : vs.length + 1 ≤ 16)
    (direct : w.getLsbD 17 = false) : s.pointerTarget ea = .ok (s.pointerAddr w, t) := by
  rw [State.pointerTarget_eq, State.chain_of_pointers h hn, direct]
  rfl

theorem State.pointerTarget_immediate (h : s.pointers false ea vs w t) (hn : vs.length + 1 ≤ 16)
    (imm : w.getLsbD 17 = true) : s.pointerTarget ea = .error .immediateOnStore := by
  rw [State.pointerTarget_eq, State.chain_of_pointers h hn, imm]
  rfl

theorem State.pointerTarget_too_long {e : Addr} (h : s.leads false ea vs e t) (hn : vs.length = 16) :
    s.pointerTarget ea = .error .tooManyLevels := by
  rw [State.pointerTarget_eq, State.chain_too_long h hn]
  rfl

end

theorem State.Turned.writable32_eq {s t : State} (h : s.Turned t) (a : Addr) : t.writable32 a = s.writable32 a := by
  simp only [State.writable32, State.writable16, State.isPresent, State.isProtected, h.keeps.cfg_eq]

theorem State.Turned.wf {s t : State} (h : s.Turned t) (hm : s.mem.wf = true) : t.mem.wf = true := by
  obtain ⟨ws, _, _, hmem, _⟩ := h.order
  rw [hmem]
  exact (State.ioWrites_mem ws s).1 hm

/-- A store of a fullword does not look at OAR. -/
theorem State.store32_setOar {s : State} {a : Addr} (b : Addr) (v : Word32) (hw : s.writable32 a = true) :
    (s.setOar b).store32 a v = .ok (((s.storeTurn false a).setOar b).setMem (s.ioTurn.mem.putWord a v)) := by
  rw [State.store32_of_writable (s := s.setOar b) v hw, ← State.storeTurn_mem (s.setOar b) false a,
    State.storeTurn_setOar]
  rfl

theorem State.linkWord_low (s : State) : s.linkWord.extractLsb' 0 18 = s.pc + 2 :=
  BitVec.extractLsb'_append_eq_right

section
variable {s t : State} {x1 : BitVec 3} {m18 : BitVec 18}

theorem execJs_odd (ho : isOdd (m18 + s.idx1 x1) = true) : execJs x1 m18 s = .fault .misaligned := by
  unfold execJs
  simp only [ho, if_true]
  rfl

variable (ho : isOdd (m18 + s.idx1 x1) = false)
include ho

/-- JS stops where the pointer at the subroutine's head does. -/
theorem execJs_stops {f : Fault} (hf : s.pointerTarget (m18 + s.idx1 x1) = .error f) : execJs x1 m18 s = .fault f := by
  unfold execJs
  simp only [ho, Bool.false_eq_true, if_false]
  rw [bind_error _ hf]
  rfl

/-- JS stores the link word where the pointer says and goes on after the pointer (R382). -/
theorem execJs_completes {a : Addr} (ht : s.pointerTarget (m18 + s.idx1 x1) = .ok (a, t))
    (hm : s.mem.wf = true) (hw : s.writable32 a = true) :
    ∃ m' n, execJs x1 m18 s = .next { t.storeTurn false a with
        mem := m', oar := m18 + s.idx1 x1, pc := m18 + s.idx1 x1 + 2, draws := n } ∧
      storedWord (t.storeTurn false a).mem m' a s.linkWord := by
  have turned := State.pointerTarget_turned ht
  rw [← turned.writable32_eq a] at hw
  refine ⟨t.ioTurn.mem.putWord a s.linkWord, (t.storeTurn false a).draws + 1, ?_,
    storedWord_putWord _ _ _ ((State.ioTurn_mem t).1 (turned.wf hm)) (State.isOdd_of_writable32 hw)⟩
  unfold execJs
  simp only [ho, Bool.false_eq_true, if_false]
  rw [bind_of_ok _ ht]
  dsimp only
  rw [bind_of_ok _ (State.store32_setOar _ _ hw)]
  rfl

end

/-- Settles O49: the chain of O20 from the subroutine's head, then the store. -/
theorem subroutineJumpCompletes : Obligations.SubroutineJumpCompletes := by
  unfold Obligations.SubroutineJumpCompletes
  intro s t x1 m18
  refine ⟨execJs_odd, fun vs w ho hp => ⟨fun hn direct hm hw => ?_, fun hn imm => ?_⟩, fun vs e ho hl hn => ?_⟩
  · obtain ⟨m', n, hx, hs⟩ := execJs_completes ho (State.pointerTarget_of_pointers hp hn direct) hm hw
    exact ⟨m', _, n, hx, hs, s.linkWord_low⟩
  · exact execJs_stops ho (State.pointerTarget_immediate hp hn imm)
  · exact execJs_stops ho (State.pointerTarget_too_long hl hn)

end Sys2Proof.Machine
end

section
/-! PROOFS. The loads of an index register and of an effective address, the logical instructions, and the uses of I, M and H
that stop (30_encoding.md R113, R114, R118, R126; 40_load_store.md R165, R166, R169 to R176; 42_float.md R260;
41_fixed_arith.md R202; 43_logical_rta_sam.md R300 to R309; 47_nonmem.md R415). -/

namespace Sys2Proof.Machine

/-! ### Loads of an index register and of an address -/

theorem loadIndex_completes {s u : State} {r : Ref} {v : Addr} {ref : RefAccess} (hr : ref = .ok (r, s))
    (hv : s.indexOperand r = .ok (v, u)) (n : BitVec 4) (len : Addr) :
    loadIndex n ref len = .next { u.setXr n v with oar := r.addr, pc := s.pc + len } := by
  rw [loadIndex_next.2 ⟨r, s, v, u, hr, hv, rfl⟩, (State.indexOperand_turned hv).frame]
  rfl

theorem zeroExtend_addr (a : Addr) : a.zeroExtend 32 = 0#14 ++ a := by
  apply BitVec.eq_of_toNat_eq
  have range := a.isLt
  rw [toNat_append_add, BitVec.toNat_setWidth, BitVec.toNat_ofNat]
  omega

theorem loadAddress_completes {s : State} {r : Ref} {ref : RefAccess} (hr : ref = .ok (r, s)) (len : Addr) :
    loadAddress ref len = .next { s with regA := 0#14 ++ r.addr, oar := r.addr, pc := s.pc + len } := by
  rw [loadAddress_next.2 ⟨r, s, hr, rfl⟩, zeroExtend_addr]
  rfl

/-- Settles O24: the short and the long form differ in their reference alone. -/
theorem indexAndAddressLoadsComplete : Obligations.IndexAndAddressLoadsComplete := by
  unfold Obligations.IndexAndAddressLoadsComplete
  exact ⟨fun s u v x1 m7 hv => loadIndex_completes rfl hv _ 1,
    fun s t u r v x1 x2 i m h m16 hr hh hv => loadIndex_completes (noHalf_ok.2 ⟨hr, hh⟩) hv x2 2,
    fun s x1 m7 => loadAddress_completes rfl 1,
    fun s t r x1 x2 i m h m16 hr => loadAddress_completes hr 2⟩

/-! ### The logical instructions -/

/-- A computation that combines A with the operand and keeps the status (43_logical_rta_sam.md R301, R303, R305). -/
theorem logical_completes {s u : State} {r : Ref} {v : Word32} {ref : RefAccess} {op : AluOp}
    {f : Word32 → Word32 → Word32} (hop : ∀ t w, op t w = (f t.regA w, t.sr)) (hr : ref = .ok (r, s))
    (hv : s.operand r = .ok (v, u)) (len : Addr) :
    aluRegister State.setA op ref len = .next { u with regA := f s.regA v, oar := r.addr, pc := s.pc + len } := by
  rw [aluRegister_completes hr hv, hop, (State.operand_turned hv).frame]
  rfl

/-- A pointer word that does not name the return variant is a long AND with H = 0 (R309). -/
theorem exec_ptr {x1 : BitVec 3} (hx : x1 ≠ 7) (x2 : BitVec 4) (i m : Bool) (m16 : BitVec 16) (s : State) :
    exec (.ptr x1 x2 i m m16) s = exec (.andL x1 x2 i m false m16) s :=
  if_neg hx

/-- Settles O41: the forms differ in their reference alone, and a pointer word is the AND or ANDR that it encodes. -/
theorem logicalComplete : Obligations.LogicalComplete := by
  unfold Obligations.LogicalComplete
  have and_eq : ∀ t w, andOp t w = (t.regA &&& w, t.sr) := fun _ _ => rfl
  have lor_eq : ∀ t w, lorOp t w = (t.regA ||| w, t.sr) := fun _ _ => rfl
  have exo_eq : ∀ t w, exoOp t w = (t.regA ^^^ w, t.sr) := fun _ _ => rfl
  refine ⟨fun s u r v hv => ⟨fun x1 m7 hr => ?_, fun t x1 x2 i m h m16 hr hh => ?_,
    fun t x1 x2 i m m16 hx hr hh => ?_⟩, fun s x2 i m m16 => rfl⟩
  · have direct : s.direct (s.shortRef x1 m7) = .ok (r, s) := congrArg s.direct hr
    exact ⟨logical_completes and_eq direct hv 1, logical_completes lor_eq direct hv 1,
      logical_completes exo_eq direct hv 1⟩
  · have allowed := noHalfLogical_ok.2 ⟨hr, hh⟩
    exact ⟨logical_completes and_eq allowed hv 2, logical_completes lor_eq allowed hv 2,
      logical_completes exo_eq allowed hv 2⟩
  · rw [exec_ptr hx]
    exact logical_completes and_eq (noHalfLogical_ok.2 ⟨hr, hh⟩) hv 2

/-! ### Chains that stop -/

/-- I and M both one stop at any level (30_encoding.md R114, R126). -/
theorem State.chain_immediate (s : State) (desig h : Bool) (n : Nat) (ea : Addr) :
    s.chain desig n ea true true h = .error .immediateAndIndirect := by
  cases n <;> rfl

/-- A halfword designator stops a word with I = 1, once what it points to is read (R114). -/
theorem State.chain_half {s t : State} {ea : Addr} {w : Word32} (hl : s.load32 ea = .ok (w, t)) (n : Nat) :
    s.chain true (n + 1) ea true false true = .error .halfBeforeLast := by
  rw [State.chain, bind_of_ok _ hl]
  rfl

/-! ### References that stop -/

section
variable {s : State} {r : Ref} {ref : RefAccess} (hr : ref = .ok (r, s))
include hr

theorem noHalf_half (hh : r.half = true) : noHalf ref = .error .halfOnIndex := by
  rw [noHalf, bind_of_ok _ hr]
  exact if_pos hh

theorem noImmediateHalf_immediate (hi : r.imm = true) : noImmediateHalf ref = .error .immediateOnStore := by
  rw [noImmediateHalf, bind_of_ok _ hr]
  exact if_pos hi

theorem noImmediateHalf_half (hi : r.imm = false) (hh : r.half = true) :
    noImmediateHalf ref = .error .halfOnIndex := by
  rw [noImmediateHalf, bind_of_ok _ hr]
  simp only [hi, hh, Bool.false_eq_true, if_false, if_true]

theorem noHalfLogical_half (hh : r.half = true) : noHalfLogical ref = .error .halfOnLogical := by
  rw [noHalfLogical, bind_of_ok _ hr]
  exact if_pos hh

theorem noDesignator_stops (hd : r.imm = true ∨ r.half = true) : noDesignator ref = .error .designatorOnRta := by
  rw [noDesignator, bind_of_ok _ hr]
  exact if_pos (Bool.or_eq_true_iff.2 hd)

/-! ### Operations that stop at an immediate -/

theorem storeRegister_immediate (hi : r.imm = true) (v : Word32) (len : Addr) :
    storeRegister v ref len = .fault .immediateOnStore := by
  rw [storeRegister, bind_of_ok _ hr]
  exact congrArg finish (if_pos hi)

theorem storeHalfA_immediate (hi : r.imm = true) (len : Addr) : storeHalfA ref len = .fault .immediateOnStore := by
  rw [storeHalfA, bind_of_ok _ hr]
  exact congrArg finish (if_pos hi)

theorem storeWord_immediate (hi : r.imm = true) (w : Word32) (len : Addr) :
    storeWord w ref len = .fault .immediateOnStore := by
  rw [storeWord, bind_of_ok _ hr]
  exact congrArg finish (if_pos hi)

section
variable {n : Nat} (load : State → Addr → Except Fault (BitVec n × State)) (op : State → BitVec n → State)

theorem floatRegister_immediate (hi : r.imm = true) (len : Addr) :
    floatRegister load op ref len = .fault .immediateOnFloat := by
  rw [floatRegister, bind_of_ok _ hr]
  exact congrArg finish (if_pos hi)

theorem floatReturn_immediate (hi : r.imm = true) (len : Addr) :
    floatReturn load op ref len = .fault .immediateOnFloat := by
  rw [floatReturn, bind_of_ok _ hr]
  exact congrArg finish (if_pos hi)

end

theorem aluReturn_immediate (hi : r.imm = true) (op : AluOp) (len : Addr) :
    aluReturn op ref len = .fault .returnImmediate := by
  have operand : s.operand r = .ok (r.immediate, s) := if_pos hi
  rw [aluReturn, bind_of_ok _ hr]
  dsimp only
  rw [bind_of_ok _ operand]
  exact congrArg finish (if_pos hi)

theorem regReturn_immediate (hi : r.imm = true) (op : RegOp) (len : Addr) :
    regReturn op ref len = .fault .returnImmediate := by
  have operand : s.operand r = .ok (r.immediate, s) := if_pos hi
  rw [regReturn, bind_of_ok _ hr]
  dsimp only
  rw [bind_of_ok _ operand]
  exact congrArg finish (if_pos hi)

end

/-! ### Operations stop where their reference does -/

section
variable {ref : RefAccess} {f : Fault} (hf : ref = .error f) (len : Addr)
include hf

theorem storeWord_error (w : Word32) : storeWord w ref len = .fault f := congrArg finish (bind_error _ hf)

theorem loadIndex_error (n : BitVec 4) : loadIndex n ref len = .fault f := congrArg finish (bind_error _ hf)

theorem aluRegister_error (set : State → Word32 → State) (op : AluOp) : aluRegister set op ref len = .fault f :=
  congrArg finish (bind_error _ hf)

theorem aluReturn_error (op : AluOp) : aluReturn op ref len = .fault f := congrArg finish (bind_error _ hf)

theorem skipMasked_error : skipMasked ref len = .fault f := congrArg finish (bind_error _ hf)

theorem returnAddress_error : returnAddress ref = .fault f := congrArg finish (bind_error _ hf)

end

/-- Settles O22: the chain, the reference or the operation stops, one lemma above for each. -/
theorem forbiddenDesignatorsStop : Obligations.ForbiddenDesignatorsStop := by
  unfold Obligations.ForbiddenDesignatorsStop
  intro s t r
  refine ⟨fun desig index h m16 => State.chain_immediate _ _ _ _ _, fun desig n ea h w hd hl indirect imm => ?pointer,
    fun n ea w hl => State.chain_half hl n, fun index m16 w hl => State.chain_half hl 15, ?stores, ?storesHalf, ?sth,
    ?special, ?stx, ?stxHalf, ?ldx, ?float, ?floatProduct, ?floatReturns, ?floatProductReturns, ?returns, ?returnsHalf,
    ?logicalReturns, ?logicalHalf, ?logicalReturnsHalf, ?rta, rfl⟩
  case pointer =>
    rw [State.chain_without_half hd, State.chain_read hl, indirect, imm]
    exact State.chain_immediate _ _ _ _ _
  case stores | storesHalf =>
    exact fun x1 x2 i m m16 hr hi => ⟨storeRegister_immediate hr hi _ _, storeRegister_immediate hr hi _ _⟩
  case sth => exact fun x1 x2 i m h m16 hr hi => storeHalfA_immediate hr hi _
  case special => exact fun x1 x2 i m m16 hr hi => ⟨storeWord_immediate hr hi _ _, storeWord_immediate hr hi _ _⟩
  case stx => exact fun x1 x2 i m h m16 hr hi => storeWord_error (noImmediateHalf_immediate hr hi) _ _
  case stxHalf => exact fun x1 x2 i m h m16 hr hi hh => storeWord_error (noImmediateHalf_half hr hi hh) _ _
  case ldx => exact fun x1 x2 i m h m16 hr hh => loadIndex_error (noHalf_half hr hh) _ _
  case float =>
    exact fun x1 x2 i m m16 hr hi => ⟨floatRegister_immediate hr _ _ hi _, floatRegister_immediate hr _ _ hi _,
      floatRegister_immediate hr _ _ hi _, floatRegister_immediate hr _ _ hi _⟩
  case floatProduct =>
    exact fun x1 x2 i m h m16 hr hi => ⟨floatRegister_immediate hr _ _ hi _, floatRegister_immediate hr _ _ hi _⟩
  case floatReturns =>
    exact fun x2 i m m16 hr hi => ⟨floatReturn_immediate hr _ _ hi _, floatReturn_immediate hr _ _ hi _,
      floatReturn_immediate hr _ _ hi _, floatReturn_immediate hr _ _ hi _⟩
  case floatProductReturns =>
    exact fun x2 i m h m16 hr hi => ⟨floatReturn_immediate hr _ _ hi _, floatReturn_immediate hr _ _ hi _⟩
  case returns | returnsHalf =>
    exact fun x2 i m m16 hr hi => ⟨aluReturn_immediate hr hi _ _, aluReturn_immediate hr hi _ _,
      aluReturn_immediate hr hi _ _, aluReturn_immediate hr hi _ _, regReturn_immediate hr hi _ _,
      regReturn_immediate hr hi _ _⟩
  case logicalReturns =>
    intro x2 i m h m16 hr hi hh
    have allowed := noHalfLogical_ok.2 ⟨hr, hh⟩
    exact ⟨aluReturn_immediate allowed hi _ _, aluReturn_immediate allowed hi _ _, aluReturn_immediate allowed hi _ _⟩
  case logicalHalf =>
    intro x1 x2 i m h m16 hr hh
    have stops := noHalfLogical_half hr hh
    exact ⟨aluRegister_error stops _ _ _, aluRegister_error stops _ _ _, aluRegister_error stops _ _ _,
      skipMasked_error stops _⟩
  case logicalReturnsHalf =>
    intro x2 i m h m16 hr hh
    have stops := noHalfLogical_half hr hh
    exact ⟨aluReturn_error stops _ _, aluReturn_error stops _ _, aluReturn_error stops _ _⟩
  case rta => exact fun x1 x2 i m h m16 hr hd => returnAddress_error (noDesignator_stops hr hd)

end Sys2Proof.Machine
end

section
/-! PROOFS. Table words that are encodings of an instruction decode to it (30_encoding.md R101 to R108, R123). -/

namespace Sys2Proof

/-- A table word that begins with the bytes of a well-formed instruction decodes to it (R101 to R108, R123). -/
theorem decodeTableWord_of_bytes {nbits w : Nat} {i : Instr} (hwf : WellFormed i = true) (rest : List Byte)
    (hb : tableWordBytes nbits w = (encode i).bytes ++ rest) : decodeTableWord nbits w = some i := by
  rw [decodeTableWord, hb, decodeInvertsEncode i rest hwf]

/-- The zeros after a 16 bit word are not read. -/
theorem decodeTableWord_short {w : Nat} {i : Instr} (hwf : WellFormed i = true)
    (he : encode i = .short (BitVec.ofNat 16 w)) : decodeTableWord 16 w = some i :=
  decodeTableWord_of_bytes hwf (halfBytes 0#16) (by rw [he]; rfl)

theorem decodeTableWord_long {w : Nat} {i : Instr} (hwf : WellFormed i = true)
    (he : encode i = .long (BitVec.ofNat 32 w)) : decodeTableWord 32 w = some i := by
  have high : (BitVec.ofNat 32 w).extractLsb' 16 16 = BitVec.ofNat 16 (w / 65536) := by
    apply BitVec.eq_of_toNat_eq
    simp only [BitVec.extractLsb'_toNat, BitVec.toNat_ofNat, Nat.shiftRight_eq_div_pow]
    omega
  have low : (BitVec.ofNat 32 w).extractLsb' 0 16 = BitVec.ofNat 16 w := by
    apply BitVec.eq_of_toNat_eq
    simp only [BitVec.extractLsb'_toNat, BitVec.toNat_ofNat, Nat.shiftRight_eq_div_pow]
    omega
  refine decodeTableWord_of_bytes hwf [] ?_
  rw [he, Code.bytes, high, low, List.append_nil]
  rfl

/-- Settles O4: each word is the encoding of its instruction, so O1 reads it back. -/
theorem sampleWordsDecode : Obligations.SampleWordsDecode := by
  unfold Obligations.SampleWordsDecode
  refine ⟨?lda, ?adur, ?adfr, ?and, ?srad, ?icn, ?jgf, ?lxa, ?dia, ?mmf⟩
  case lda | adfr | and | icn | jgf => exact decodeTableWord_long rfl rfl
  case adur | srad | lxa | dia | mmf => exact decodeTableWord_short rfl rfl

end Sys2Proof
end

section
/-! PROOFS. The loads of A and B (40_load_store.md R160 to R164). -/

namespace Sys2Proof.Machine

section
variable {s u : State} {r : Ref} {v : Word32} {ref : RefAccess} (hr : ref = .ok (r, s))
  (hv : s.operand r = .ok (v, u)) (len : Addr)
include hr hv

/-- The turn of the operand's read leaves pc alone, so the next instruction is found from the pc before it. -/
theorem loadA_completes : loadRegister State.setA ref len = .next { u with
    regA := v, oar := r.addr, pc := s.pc + len } := by
  rw [loadRegister_next.2 ⟨r, s, v, u, hr, hv, rfl⟩, (State.operand_turned hv).frame]
  rfl

theorem loadB_completes : loadRegister State.setB ref len = .next { u with
    regB := v, oar := r.addr, pc := s.pc + len } := by
  rw [loadRegister_next.2 ⟨r, s, v, u, hr, hv, rfl⟩, (State.operand_turned hv).frame]
  rfl

end

/-- Settles O23: the forms differ in their reference alone. -/
theorem loadsComplete : Obligations.LoadsComplete := by
  unfold Obligations.LoadsComplete
  intro s u r v hv
  refine ⟨fun x1 m7 hr => ?short, fun t x1 x2 i m m16 hr => ?long, fun t x1 x2 i m m16 hr => ?longHalf⟩
  case short =>
    have direct : s.direct (s.shortRef x1 m7) = .ok (r, s) := congrArg s.direct hr
    exact ⟨loadA_completes direct hv 1, loadB_completes direct hv 1⟩
  case long | longHalf => exact ⟨loadA_completes hr hv 2, loadB_completes hr hv 2⟩

end Sys2Proof.Machine
end

section
/-! PROOFS. The return to memory variants of the add, subtract and logical instructions: outside the Fast Scratchpad they
do nothing, in it the logical ones store the result (41_fixed_arith.md R202; 43_logical_rta_sam.md R302, R304, R306). -/

namespace Sys2Proof.Machine

section
variable {s u : State} {r : Ref} {v : Word32} {ref : RefAccess} (len : Addr) (hr : ref = .ok (r, s))
  (hv : s.operand r = .ok (v, u)) (hi : r.imm = false)
include hr hv hi

/-- Outside the Fast Scratchpad neither the result nor its flags go anywhere (R202, D10). -/
theorem aluReturn_outside (op : AluOp) (hf : s.inFast r.addr = false) :
    aluReturn op ref len = .next { u with oar := r.addr, pc := s.pc + len } := by
  have turned := State.operand_turned hv
  have outside : u.inFast r.addr = false := by rw [State.inFast, turned.keeps.cfg_eq]; exact hf
  rw [aluReturn_next.2 ⟨r, s, v, u, hr, hv, hi, .inr ⟨outside, rfl⟩⟩, turned.frame]
  rfl

/-- In the Fast Scratchpad the result is stored; a logical computation keeps the status. -/
theorem logicalReturn_completes {op : AluOp} {f : Word32 → Word32 → Word32}
    (hop : ∀ t w, op t w = (f t.regA w, t.sr)) (hm : s.mem.wf = true) (hf : s.inFast r.addr = true)
    (hw : s.writable r = true) :
    ∃ m', aluReturn op ref len = .next { u.storeTurn r.half r.addr with
        mem := m', oar := r.addr, pc := s.pc + len } ∧
      stored (u.storeTurn r.half r.addr).mem m' r (f s.regA v) := by
  have result : op u v = (f s.regA v, (u.storeTurn r.half r.addr).sr) := by
    rw [hop, (State.operand_turned hv).regA_eq, u.storeTurn_memoryOnly r.half r.addr]
  exact aluReturn_completes len hr hv hi hm hf hw result

end

/-- Settles O31: the forms differ in their reference alone. -/
theorem returnVariantsOutsideFast : Obligations.ReturnVariantsOutsideFast := by
  unfold Obligations.ReturnVariantsOutsideFast
  intro s u r v hv hi hf
  have short : ∀ {m7} (op : AluOp), s.shortReturnRef m7 = r →
      aluReturn op (s.direct (s.shortReturnRef m7)) 1 = .next { u with oar := r.addr, pc := s.pc + 1 } :=
    fun op hr => aluReturn_outside 1 (congrArg s.direct hr) hv hi op hf
  have long : ∀ {ref : RefAccess} (op : AluOp), ref = .ok (r, s) →
      aluReturn op ref 2 = .next { u with oar := r.addr, pc := s.pc + 2 } :=
    fun op hr => aluReturn_outside 2 hr hv hi op hf
  refine ⟨fun m7 hr => ⟨short _ hr, short _ hr, short _ hr, short _ hr⟩,
    fun t x2 i m m16 hr => ⟨long _ hr, long _ hr, long _ hr, long _ hr⟩,
    fun t x2 i m m16 hr => ⟨long _ hr, long _ hr, long _ hr, long _ hr⟩,
    fun m7 hr => ⟨short _ hr, short _ hr, short _ hr⟩, fun t x2 i m h m16 hr hh => ?_⟩
  have allowed := noHalfLogical_ok.2 ⟨hr, hh⟩
  exact ⟨long _ allowed, long _ allowed, long _ allowed⟩

/-- Settles O42: the forms differ in their reference alone. -/
theorem logicalReturns : Obligations.LogicalReturns := by
  unfold Obligations.LogicalReturns
  intro s u r v hm hv hi hf hw
  have and_eq : ∀ t w, andOp t w = (t.regA &&& w, t.sr) := fun _ _ => rfl
  have lor_eq : ∀ t w, lorOp t w = (t.regA ||| w, t.sr) := fun _ _ => rfl
  have exo_eq : ∀ t w, exoOp t w = (t.regA ^^^ w, t.sr) := fun _ _ => rfl
  refine ⟨fun m7 hr => ?_, fun t x2 i m h m16 hr hh => ?_⟩
  · have direct : s.direct (s.shortReturnRef m7) = .ok (r, s) := congrArg s.direct hr
    exact ⟨logicalReturn_completes 1 direct hv hi and_eq hm hf hw,
      logicalReturn_completes 1 direct hv hi lor_eq hm hf hw,
      logicalReturn_completes 1 direct hv hi exo_eq hm hf hw⟩
  · have allowed := noHalfLogical_ok.2 ⟨hr, hh⟩
    exact ⟨logicalReturn_completes 2 allowed hv hi and_eq hm hf hw,
      logicalReturn_completes 2 allowed hv hi lor_eq hm hf hw,
      logicalReturn_completes 2 allowed hv hi exo_eq hm hf hw⟩

end Sys2Proof.Machine
end

section
/-! PROOFS. Operations that write A, or A and B, and return to memory after them: the registers keep the result, and A
is stored where the operand came from the Fast Scratchpad (41_fixed_arith.md R202). -/

namespace Sys2Proof.Machine

/-! ### The store after the registers are written -/

theorem State.Turned.returnable_eq {s t : State} (h : s.Turned t) (r : Ref) : t.returnable r = s.returnable r := by
  simp only [State.returnable, State.inFast, State.writable, State.writable32, State.writable16, State.isPresent,
    State.isProtected, h.keeps.cfg_eq]

/-- Return to memory goes on in a state whose other registers are as before. -/
theorem State.returnTurn_memoryOnly (s : State) (r : Ref) : s.MemoryOnly (s.returnTurn r) := by
  unfold State.returnTurn
  split
  · exact s.storeTurn_memoryOnly r.half r.addr
  · exact rfl

theorem State.returnTurn_inFast (s : State) (r : Ref) (a : Addr) : (s.returnTurn r).inFast a = s.inFast a := by
  rw [State.inFast, s.returnTurn_memoryOnly r, State.inFast]

theorem State.returnTurn_regB (s : State) (r : Ref) : (s.returnTurn r).regB = s.regB := by
  rw [s.returnTurn_memoryOnly r]

theorem State.returnTurn_draws (s : State) (r : Ref) : (s.returnTurn r).draws = s.draws := by
  rw [s.returnTurn_memoryOnly r]

section
variable {s t : State} {r : Ref} {a b : Word32} {x : Addr} {n : Nat}
  (ht : t = { s with regA := a, regB := b, oar := x, draws := n }) (hm : s.mem.wf = true)
include ht hm

/-- A store goes on in the state of its turn whatever the registers hold by then. -/
theorem State.storeBack_registers (v : Word32) (hw : s.writable r = true) :
    ∃ m', t.storeBack r.addr r.half v = .ok { s.storeTurn r.half r.addr with
        regA := a, regB := b, oar := x, draws := n, mem := m' } ∧
      stored (s.storeTurn r.half r.addr).mem m' r v := by
  have turn : t.storeTurn r.half r.addr = { s.storeTurn r.half r.addr with
      regA := a, regB := b, oar := x, draws := n } := by
    conv_rhs => rw [s.storeTurn_memoryOnly r.half r.addr]
    subst ht
    exact State.storeTurn_with (s := s) (t := { s with regA := a, regB := b, oar := x, draws := n })
      rfl rfl rfl rfl rfl rfl _ _
  have canonical : t.mem.wf = true := by rw [ht]; exact hm
  have writable : t.writable r = true := by rw [ht]; exact hw
  obtain ⟨m', hs, hstored⟩ := State.storeBack_of_writable v canonical writable
  rw [turn] at hs hstored
  exact ⟨m', hs, hstored⟩

/-- Return to memory, kind 2: A is stored where the operand's cell lies in the Fast Scratchpad, and the registers keep
what was written to them (R202). -/
theorem State.return_registers (len : Addr) (hw : s.returnable r = true) :
    ∃ m' w, w = { s.returnTurn r with
        regA := a, regB := b, mem := m', oar := x, pc := s.pc + len, draws := n } ∧
      ((s.inFast r.addr = true ∧ ∃ t', t.storeBack r.addr r.half t.regA = .ok t' ∧ w = t'.advance len) ∨
        (s.inFast r.addr = false ∧ w = t.advance len)) ∧
      (s.returnTurn r).returned m' r a := by
  have regA_eq : t.regA = a := by rw [ht]
  unfold State.returned
  rw [State.returnTurn_inFast, regA_eq]
  cases hf : s.inFast r.addr with
  | true =>
    have writable : s.writable r = true := by simpa [State.returnable, hf] using hw
    have turn : s.returnTurn r = s.storeTurn r.half r.addr := if_pos hf
    obtain ⟨m', hs, hstored⟩ := State.storeBack_registers ht hm a writable
    refine ⟨m', _, rfl, .inl ⟨rfl, _, hs, ?_⟩, turn ▸ hstored⟩
    rw [turn, ← s.storeTurn_pc r.half r.addr]
    rfl
  | false =>
    have turn : s.returnTurn r = s := if_neg (by simp [hf])
    rw [turn]
    exact ⟨s.mem, _, rfl, .inr ⟨rfl, by rw [ht]; rfl⟩, rfl⟩

end

/-! ### From what an operation leaves to the next state -/

section
variable {s u : State} {r : Ref} {v a b : Word32} {n : Nat} {ref : RefAccess} {op : RegOp} (len : Addr)
  (hr : ref = .ok (r, s)) (hv : s.operand r = .ok (v, u))
  (hop : op (u.setOar r.addr) r.half v = { u with regA := a, regB := b, oar := r.addr, draws := n })
include hr hv hop

theorem regOperation_completes : regOperation op ref len = .next { u with
    regA := a, regB := b, oar := r.addr, pc := s.pc + len, draws := n } := by
  rw [regOperation_next.2 ⟨r, s, v, u, hr, hv, rfl⟩, hop, (State.operand_turned hv).frame]
  rfl

theorem regReturn_completes (hi : r.imm = false) (hm : s.mem.wf = true) (hw : s.returnable r = true) :
    ∃ m', regReturn op ref len = .next { u.returnTurn r with
        regA := a, regB := b, mem := m', oar := r.addr, pc := s.pc + len, draws := n } ∧
      (u.returnTurn r).returned m' r a := by
  have turned := State.operand_turned hv
  obtain ⟨m', w, hstate, hcase, hreturned⟩ :=
    State.return_registers hop (turned.wf hm) len ((turned.returnable_eq r).trans hw)
  have pc_eq : u.pc = s.pc := by rw [turned.frame]
  rw [pc_eq] at hstate
  exact ⟨m', hstate ▸ regReturn_next.2 ⟨r, s, v, u, hr, hv, hi, hcase⟩, hreturned⟩

end

end Sys2Proof.Machine
end

section
/-! PROOFS. Multiplication (41_fixed_arith.md R219 to R222). -/

namespace Sys2Proof.Machine

/-! ### The product -/

/-- The 64 bits that MUL leaves in (A,B): the product, then the sign of A (R219). -/
def product (a v : Word32) : BitVec 64 := BitVec.ofInt 63 (a.toInt * v.toInt) ++ BitVec.ofBool a.msb

section
variable (a v : Word32)

theorem product_high : (product a v).extractLsb' 1 63 = BitVec.ofInt 63 (a.toInt * v.toInt) :=
  BitVec.extractLsb'_append_eq_left

theorem product_last : (product a v).getLsbD 0 = a.msb := by
  rw [product, BitVec.getLsbD_append]
  simp

/-- Of two 32 bit numbers that are not both the least one, the product has 63 bits. -/
theorem abs_mul_toInt_lt (h : ¬(a = 0x80000000#32 ∧ v = 0x80000000#32)) : |a.toInt * v.toInt| < 2 ^ 62 := by
  have magnitude : ∀ w : Word32, |w.toInt| ≤ 2 ^ 31 ∧ (w ≠ 0x80000000#32 → |w.toInt| < 2 ^ 31) := by
    intro w
    have lower : -2 ^ 31 ≤ w.toInt := BitVec.le_toInt w
    have upper : w.toInt < 2 ^ 31 := BitVec.toInt_lt
    refine ⟨abs_le.2 ⟨lower, upper.le⟩, fun hw => abs_lt.2 ⟨lower.lt_of_ne fun e => hw ?_, upper⟩⟩
    exact BitVec.eq_of_toInt_eq (e.symm.trans (by decide))
  obtain ⟨ha, ha'⟩ := magnitude a
  obtain ⟨hv, hv'⟩ := magnitude v
  rw [abs_mul, show (2 : Int) ^ 62 = 2 ^ 31 * 2 ^ 31 by norm_num]
  rcases not_and_or.1 h with h | h
  · exact mul_lt_mul_of_lt_of_le_of_nonneg_of_pos (ha' h) hv (abs_nonneg _) (by norm_num)
  · exact mul_lt_mul_of_le_of_lt_of_nonneg_of_pos ha (hv' h) (abs_nonneg _) (by norm_num)

theorem product_exact (h : ¬(a = 0x80000000#32 ∧ v = 0x80000000#32)) :
    ((product a v).extractLsb' 1 63).toInt = a.toInt * v.toInt := by
  obtain ⟨lower, upper⟩ := abs_lt.1 (abs_mul_toInt_lt a v h)
  rw [product_high, BitVec.toInt_ofInt]
  exact Int.bmod_eq_of_le (by norm_num; omega) (by norm_num; omega)

end

/-- `p` is a word that MULH may leave in A: the product of the left halves, and a free bit (R220). -/
def HalfProduct (a v p : Word32) : Prop :=
  p.extractLsb' 1 31 = BitVec.ofInt 31 ((a.extractLsb' 16 16).toInt * (v.extractLsb' 16 16).toInt)

/-! ### What the operation leaves -/

section
variable {s u : State} {v : Word32} (turned : s.Turned u) (x : Addr)
include turned

theorem mulOp_full : mulOp (u.setOar x) false v = { u with
    regA := (product s.regA v).extractLsb' 32 32, regB := (product s.regA v).extractLsb' 0 32, oar := x,
    draws := u.draws } := by
  rw [← turned.regA_eq]
  rfl

theorem mulOp_half : ∃ a n, mulOp (u.setOar x) true v = { u with
      regA := a, regB := u.regB, oar := x, draws := n } ∧
    HalfProduct s.regA v a := by
  rw [← turned.regA_eq]
  exact ⟨_, _, rfl, BitVec.extractLsb'_append_eq_left⟩

end

/-! ### Every form -/

section
variable {s u : State} {r : Ref} {v : Word32} {ref : RefAccess} (hr : ref = .ok (r, s))
  (hv : s.operand r = .ok (v, u)) (len : Addr)
include hr hv

/-- MUL, in either form (R219). -/
theorem mul_completes (hh : r.half = false) :
    ∃ ab : BitVec 64, regOperation mulOp ref len = .next { u with
        regA := ab.extractLsb' 32 32, regB := ab.extractLsb' 0 32, oar := r.addr, pc := s.pc + len } ∧
      ab.extractLsb' 1 63 = BitVec.ofInt 63 (s.regA.toInt * v.toInt) ∧ ab.getLsbD 0 = s.regA.msb ∧
      (¬(s.regA = 0x80000000#32 ∧ v = 0x80000000#32) →
        (ab.extractLsb' 1 63).toInt = s.regA.toInt * v.toInt) :=
  ⟨product s.regA v, regOperation_completes len hr hv (hh ▸ mulOp_full (State.operand_turned hv) r.addr),
    product_high _ _, product_last _ _, product_exact _ _⟩

/-- MULH, in any form (R220). -/
theorem mulHalf_completes (hh : r.half = true) :
    ∃ a n, regOperation mulOp ref len = .next { u with
        regA := a, oar := r.addr, pc := s.pc + len, draws := n } ∧
      HalfProduct s.regA v a := by
  obtain ⟨a, n, hop, ha⟩ := mulOp_half (v := v) (State.operand_turned hv) r.addr
  exact ⟨a, n, regOperation_completes len hr hv (hh ▸ hop), ha⟩

variable (hi : r.imm = false) (hm : s.mem.wf = true) (hw : s.returnable r = true)
include hi hm hw

/-- MULR, in either form (R221). -/
theorem mulReturn_completes (hh : r.half = false) :
    ∃ (ab : BitVec 64) (m' : Memory), regReturn mulOp ref len = .next { u.returnTurn r with
        regA := ab.extractLsb' 32 32, regB := ab.extractLsb' 0 32, mem := m', oar := r.addr, pc := s.pc + len } ∧
      ab.extractLsb' 1 63 = BitVec.ofInt 63 (s.regA.toInt * v.toInt) ∧ ab.getLsbD 0 = s.regA.msb ∧
      (u.returnTurn r).returned m' r (ab.extractLsb' 32 32) := by
  obtain ⟨m', hx, hreturned⟩ :=
    regReturn_completes len hr hv (hh ▸ mulOp_full (State.operand_turned hv) r.addr) hi hm hw
  rw [← u.returnTurn_draws r] at hx
  exact ⟨product s.regA v, m', hx, product_high _ _, product_last _ _, hreturned⟩

/-- MULHR, in any form (R222). -/
theorem mulHalfReturn_completes (hh : r.half = true) :
    ∃ a m' n, regReturn mulOp ref len = .next { u.returnTurn r with
        regA := a, mem := m', oar := r.addr, pc := s.pc + len, draws := n } ∧
      HalfProduct s.regA v a ∧
      (u.returnTurn r).returned m' r a := by
  obtain ⟨a, n, hop, ha⟩ := mulOp_half (v := v) (State.operand_turned hv) r.addr
  obtain ⟨m', hx, hreturned⟩ := regReturn_completes len hr hv (hh ▸ hop) hi hm hw
  rw [← u.returnTurn_regB r] at hx
  exact ⟨a, m', n, hx, ha, hreturned⟩

end

/-- Settles O33: the forms differ in their reference alone. -/
theorem multiplyProducts : Obligations.MultiplyProducts := by
  unfold Obligations.MultiplyProducts
  intro s u r v hv
  refine ⟨fun hh => ⟨fun x1 m7 hr => ?short, fun t x1 x2 i m m16 hr => ?long⟩,
    fun hh => ⟨fun x1 m7 hr => ?shortHalf, fun t x1 x2 i m m16 hr => ?longHalf, fun t x1 x2 i m m16 hr => ?longHalf'⟩⟩
  case short => exact mul_completes (congrArg s.direct hr) hv 1 hh
  case long => exact mul_completes hr hv 2 hh
  case shortHalf => exact mulHalf_completes (congrArg s.direct hr) hv 1 hh
  case longHalf | longHalf' => exact mulHalf_completes hr hv 2 hh

/-- Settles O34: the product of O33, and then the store of A. -/
theorem multiplyReturns : Obligations.MultiplyReturns := by
  unfold Obligations.MultiplyReturns
  intro s u r v hm hv hi hw
  refine ⟨fun hh => ⟨fun m7 hr => ?short, fun t x2 i m m16 hr => ?long⟩,
    fun hh => ⟨fun m7 hr => ?shortHalf, fun t x2 i m m16 hr => ?longHalf, fun t x2 i m m16 hr => ?longHalf'⟩⟩
  case short => exact mulReturn_completes (congrArg s.direct hr) hv 1 hi hm hw hh
  case long => exact mulReturn_completes hr hv 2 hi hm hw hh
  case shortHalf => exact mulHalfReturn_completes (congrArg s.direct hr) hv 1 hi hm hw hh
  case longHalf | longHalf' => exact mulHalfReturn_completes hr hv 2 hi hm hw hh

end Sys2Proof.Machine
end

section
/-! PROOFS. Division (41_fixed_arith.md R223 to R226). -/

namespace Sys2Proof.Machine

/-! ### Quotients -/

theorem quotientOf_neg {n d q : Int} (h : quotientOf (-n) (-d) q) : quotientOf n d q := by
  obtain ⟨near, whole⟩ := h
  refine ⟨?_, fun hd => ?_⟩
  · rwa [mul_neg, ← neg_sub', abs_neg, abs_neg] at near
  · have := whole (neg_dvd.2 (dvd_neg.2 hd))
    linarith [mul_neg q d]

/-- For a positive divisor the quotient is rounded down, or up where that is wanted and fits. -/
theorem neighbourQuotient_of_pos {n d : Int} (hd : 0 < d) (top : Int) (up : Bool) :
    neighbourQuotient n d top up = n / d ∨
      n % d ≠ 0 ∧ n / d + 1 ≤ top ∧ neighbourQuotient n d top up = n / d + 1 := by
  unfold neighbourQuotient
  rw [if_neg hd.not_gt, if_neg hd.not_gt]
  dsimp only
  split
  · rename_i h
    exact .inr ⟨h.1, h.2.2, rfl⟩
  · exact .inl rfl

/-- A quotient depends on the signs only through their product. -/
theorem neighbourQuotient_neg {n d : Int} (hd : d < 0) (top : Int) (up : Bool) :
    neighbourQuotient n d top up = neighbourQuotient (-n) (-d) top up := by
  have pos : ¬ -d < 0 := by omega
  simp only [neighbourQuotient, if_pos hd, if_neg pos]

/-- Where the exact quotient of a positive divisor lies in a range of the form -k to k - 1, the quotient is one of its
neighbours and in that range (R223, log 22). -/
theorem neighbourQuotient_spec_of_pos {n d k : Int} (hd : 0 < d) (h : |n| < k * d) (up : Bool) :
    quotientOf n d (neighbourQuotient n d (k - 1) up) ∧
      -k ≤ neighbourQuotient n d (k - 1) up ∧ neighbourQuotient n d (k - 1) up < k := by
  obtain ⟨lower, upper⟩ := abs_lt.1 h
  have value := Int.mul_ediv_add_emod n d
  have rest := Int.emod_nonneg n hd.ne'
  have rest' := Int.emod_lt_of_pos n hd
  have floor_lt : n / d < k := Int.ediv_lt_of_lt_mul hd upper
  have le_floor : -k ≤ n / d := Int.le_ediv_of_mul_le hd (by linarith)
  rcases neighbourQuotient_of_pos hd (k - 1) up with hq | ⟨hr, fits, hq⟩
  · rw [hq]
    refine ⟨⟨?_, fun hdvd => (Int.ediv_mul_cancel hdvd).symm⟩, le_floor, floor_lt⟩
    rw [abs_of_pos hd, show n - n / d * d = n % d by linarith [mul_comm d (n / d)], abs_of_nonneg rest]
    exact rest'
  · rw [hq]
    refine ⟨⟨?_, fun hdvd => absurd (Int.emod_eq_zero_of_dvd hdvd) hr⟩, by omega, by omega⟩
    rw [abs_of_pos hd, show n - (n / d + 1) * d = n % d - d by linarith [mul_comm d (n / d)], abs_lt]
    omega

theorem neighbourQuotient_spec {n d k : Int} (h : |n| < k * |d|) (hd : d ≠ 0) (up : Bool) :
    quotientOf n d (neighbourQuotient n d (k - 1) up) ∧
      -k ≤ neighbourQuotient n d (k - 1) up ∧ neighbourQuotient n d (k - 1) up < k := by
  rcases hd.lt_or_gt with neg | pos
  · rw [abs_of_neg neg, ← abs_neg] at h
    obtain ⟨quotient, range⟩ := neighbourQuotient_spec_of_pos (Int.neg_pos.2 neg) h up
    rw [neighbourQuotient_neg neg]
    exact ⟨quotientOf_neg quotient, range⟩
  · rw [abs_of_pos pos] at h
    exact neighbourQuotient_spec_of_pos pos h up

/-- The quotient of `k + 1` bits. -/
theorem quotientOf_ofInt {n d : Int} {k : Nat} (h : |n| < 2 ^ k * |d|) (hd : d ≠ 0) (up : Bool) :
    quotientOf n d (BitVec.ofInt (k + 1) (neighbourQuotient n d (2 ^ k - 1) up)).toInt := by
  obtain ⟨quotient, lower, upper⟩ := neighbourQuotient_spec h hd up
  rw [BitVec.toInt_ofInt, Int.bmod_eq_of_le (by rw [pow_succ]; push_cast; omega) (by rw [pow_succ]; push_cast; omega)]
  exact quotient

/-! ### Dividends -/

/-- The dividend of DVD is A followed by the first 31 bits of B (R223). -/
theorem dividend_append (a b : Word32) : dividend (a ++ b) = a.toInt * 2 ^ 31 + (b.toNat / 2 : Nat) := by
  have := a.isLt
  have := b.isLt
  rw [dividend, BitVec.toInt_eq_toNat_cond, BitVec.toInt_eq_toNat_cond, BitVec.extractLsb'_toNat, toNat_words,
    Nat.shiftRight_eq_div_pow]
  split <;> split <;> omega

/-- A dividend whose upper word is smaller in magnitude than the divisor has a quotient of 32 bits. -/
theorem abs_dividend_lt {a b : Word32} {d : Int} (h : a.toInt.natAbs < d.natAbs) :
    |dividend (a ++ b)| < 2 ^ 31 * |d| := by
  have := b.isLt
  rw [dividend_append, Int.abs_eq_natAbs d, abs_lt]
  omega

/-! ### What the operation leaves -/

/-- `q` is a quotient that DVD may leave, where the dividend (`a`, `b`) is small enough for one (R223). -/
def FullQuotient (a b v q : Word32) : Prop :=
  a.toInt.natAbs < v.toInt.natAbs → quotientOf (dividend (a ++ b)) v.toInt q.toInt

/-- `a'` and `b'` are what DVDH may leave in A and B, where the left half of `a` is small enough; a law for the quotient
is given where the right half is zero (R224, log 21). -/
def HalfQuotient (a b v a' b' : Word32) : Prop :=
  (a.extractLsb' 16 16).toInt.natAbs < (v.extractLsb' 16 16).toInt.natAbs → b' = b ∧
    (a.extractLsb' 0 16 = 0#16 → quotientOf ((a.extractLsb' 16 16).toInt * 2 ^ 15) (v.extractLsb' 16 16).toInt
      (a'.extractLsb' 16 16).toInt)

section
variable (s : State) (v : Word32)

theorem dvdFull_quotient : ∃ q b n, dvdFull s v = { s with regA := q, regB := b, draws := n } ∧
    FullQuotient s.regA s.regB v q := by
  unfold dvdFull
  split
  · rename_i h
    exact ⟨_, _, _, rfl, fun _ => quotientOf_ofInt (k := 31) (abs_dividend_lt h) (by omega) _⟩
  · rename_i h
    exact ⟨_, _, _, rfl, fun h' => absurd h' h⟩

/-- The quotient of DVDH where R224 gives it a law. -/
theorem quotientHalf_quotient {a : Word32} {d : Half} (h : (a.extractLsb' 16 16).toInt.natAbs < d.toInt.natAbs)
    (h0 : a.extractLsb' 0 16 = 0#16) :
    quotientOf ((a.extractLsb' 16 16).toInt * 2 ^ 15) d.toInt (quotientHalf a d).toInt := by
  rw [quotientHalf, if_pos h0]
  refine quotientOf_ofInt (k := 15) ?_ (by omega) _
  rw [Int.abs_eq_natAbs d.toInt, abs_lt]
  omega

theorem dvdHalf_quotient : ∃ a b n, dvdHalf s v = { s with regA := a, regB := b, draws := n } ∧
    HalfQuotient s.regA s.regB v a b := by
  unfold dvdHalf
  dsimp only
  split
  · rename_i h
    refine ⟨_, _, _, rfl, fun _ => ⟨rfl, fun h0 => ?_⟩⟩
    rw [State.setA_regA, BitVec.extractLsb'_append_eq_left]
    exact quotientHalf_quotient h h0
  · rename_i h
    exact ⟨_, _, _, rfl, fun h' => absurd h' h⟩

end

section
variable {s u : State} (turned : s.Turned u) (v : Word32) (x : Addr)
include turned

theorem dvdOp_full : ∃ q b n, dvdOp (u.setOar x) false v = { u with regA := q, regB := b, oar := x, draws := n } ∧
    FullQuotient s.regA s.regB v q := by
  rw [← turned.regA_eq, ← turned.regB_eq]
  exact dvdFull_quotient (u.setOar x) v

theorem dvdOp_half : ∃ a b n, dvdOp (u.setOar x) true v = { u with regA := a, regB := b, oar := x, draws := n } ∧
    HalfQuotient s.regA s.regB v a b := by
  rw [← turned.regA_eq, ← turned.regB_eq]
  exact dvdHalf_quotient (u.setOar x) v

end

/-! ### Every form -/

section
variable {s u : State} {r : Ref} {v : Word32} {ref : RefAccess} (hr : ref = .ok (r, s))
  (hv : s.operand r = .ok (v, u)) (len : Addr)
include hr hv

/-- DVD, in either form (R223). -/
theorem dvd_completes (hh : r.half = false) :
    ∃ q b n, regOperation dvdOp ref len = .next { u with
        regA := q, regB := b, oar := r.addr, pc := s.pc + len, draws := n } ∧
      FullQuotient s.regA s.regB v q := by
  obtain ⟨q, b, n, hop, hq⟩ := dvdOp_full (State.operand_turned hv) v r.addr
  exact ⟨q, b, n, regOperation_completes len hr hv (hh ▸ hop), hq⟩

/-- DVDH, in any form (R224). -/
theorem dvdHalf_completes (hh : r.half = true) :
    ∃ a b n, regOperation dvdOp ref len = .next { u with
        regA := a, regB := b, oar := r.addr, pc := s.pc + len, draws := n } ∧
      HalfQuotient s.regA s.regB v a b := by
  obtain ⟨a, b, n, hop, ha⟩ := dvdOp_half (State.operand_turned hv) v r.addr
  exact ⟨a, b, n, regOperation_completes len hr hv (hh ▸ hop), ha⟩

variable (hi : r.imm = false) (hm : s.mem.wf = true) (hw : s.returnable r = true)
include hi hm hw

/-- DVDR, in either form (R225). -/
theorem dvdReturn_completes (hh : r.half = false) :
    ∃ q b m' n, regReturn dvdOp ref len = .next { u.returnTurn r with
        regA := q, regB := b, mem := m', oar := r.addr, pc := s.pc + len, draws := n } ∧
      FullQuotient s.regA s.regB v q ∧
      (u.returnTurn r).returned m' r q := by
  obtain ⟨q, b, n, hop, hq⟩ := dvdOp_full (State.operand_turned hv) v r.addr
  obtain ⟨m', hx, hreturned⟩ := regReturn_completes len hr hv (hh ▸ hop) hi hm hw
  exact ⟨q, b, m', n, hx, hq, hreturned⟩

/-- DVDHR, in any form (R226). -/
theorem dvdHalfReturn_completes (hh : r.half = true) :
    ∃ a b m' n, regReturn dvdOp ref len = .next { u.returnTurn r with
        regA := a, regB := b, mem := m', oar := r.addr, pc := s.pc + len, draws := n } ∧
      HalfQuotient s.regA s.regB v a b ∧
      (u.returnTurn r).returned m' r a := by
  obtain ⟨a, b, n, hop, ha⟩ := dvdOp_half (State.operand_turned hv) v r.addr
  obtain ⟨m', hx, hreturned⟩ := regReturn_completes len hr hv (hh ▸ hop) hi hm hw
  exact ⟨a, b, m', n, hx, ha, hreturned⟩

end

/-- Settles O35: a dividend that meets the magnitude precondition has its quotients in range, and one of the two
neighbours is taken. -/
theorem divideQuotients : Obligations.DivideQuotients := by
  unfold Obligations.DivideQuotients
  intro s u r v hv
  refine ⟨fun hh => ⟨fun x1 m7 hr => ?short, fun t x1 x2 i m m16 hr => ?long⟩,
    fun hh => ⟨fun x1 m7 hr => ?shortHalf, fun t x1 x2 i m m16 hr => ?longHalf, fun t x1 x2 i m m16 hr => ?longHalf'⟩⟩
  case short => exact dvd_completes (congrArg s.direct hr) hv 1 hh
  case long => exact dvd_completes hr hv 2 hh
  case shortHalf => exact dvdHalf_completes (congrArg s.direct hr) hv 1 hh
  case longHalf | longHalf' => exact dvdHalf_completes hr hv 2 hh

/-- Settles O36: the quotient of O35, and then the store of A. -/
theorem divideReturns : Obligations.DivideReturns := by
  unfold Obligations.DivideReturns
  intro s u r v hm hv hi hw
  refine ⟨fun hh => ⟨fun m7 hr => ?short, fun t x2 i m m16 hr => ?long⟩,
    fun hh => ⟨fun m7 hr => ?shortHalf, fun t x2 i m m16 hr => ?longHalf, fun t x2 i m m16 hr => ?longHalf'⟩⟩
  case short => exact dvdReturn_completes (congrArg s.direct hr) hv 1 hi hm hw hh
  case long => exact dvdReturn_completes hr hv 2 hi hm hw hh
  case shortHalf => exact dvdHalfReturn_completes (congrArg s.direct hr) hv 1 hi hm hw hh
  case longHalf | longHalf' => exact dvdHalfReturn_completes hr hv 2 hi hm hw hh

end Sys2Proof.Machine
end

section
/-! PROOFS. Floating point division: the value that `Dyadic.div` answers rounds as the exact quotient does (42_float.md
R262, R269, R276). -/

namespace Sys2Proof.Machine

/-! ### Values that round alike -/

/-- Two values that no normalized single precision number tells apart, both zero or neither. -/
structure RoundAlike (x z : ℚ) : Prop where
  zero : x = 0 ↔ z = 0
  below : ∀ v, normalized32 v = true → (fval32 v ≤ x ↔ fval32 v ≤ z)
  above : ∀ v, normalized32 v = true → (x ≤ fval32 v ↔ z ≤ fval32 v)

/-- The law of rounding asks of a value only how normalized numbers compare with it (R262, R275). -/
theorem RoundAlike.rounds {x z : ℚ} {zero w : Word32} (h : RoundAlike x z) (hw : rounds32 zero z w) :
    rounds32 zero x w := by
  obtain ⟨hzero, hnear⟩ := hw
  refine ⟨fun h0 => hzero (h.zero.1 h0), fun ⟨u, v, hu, hv, lower, upper, sign⟩ => ?_⟩
  obtain ⟨normal, nearest⟩ := hnear ⟨u, v, hu, hv, (h.below u hu).1 lower, (h.above v hv).1 upper, sign⟩
  exact ⟨normal, fun t ht => by rw [h.below t ht, h.above t ht]; exact nearest t ht⟩

/-! ### The digits of a quotient -/

/-- The digits that `Dyadic.div` keeps of the quotient of two integers, and a last one for what is left over. -/
def stickyQuotient (num den : Int) : Int := 2 * (num / den) + if num % den = 0 then 0 else 1

section
variable {num den : Int} (hd : 0 < den)
include hd

theorem le_stickyQuotient_iff (k : Int) : k * den ≤ num ↔ 2 * k ≤ stickyQuotient num den := by
  rw [← Int.le_ediv_iff_mul_le hd, stickyQuotient]
  split <;> omega

theorem stickyQuotient_le_iff (k : Int) : num ≤ k * den ↔ stickyQuotient num den ≤ 2 * k := by
  have eq_iff : num = k * den ↔ num / den = k ∧ num % den = 0 := by
    constructor
    · rintro rfl
      exact ⟨Int.mul_ediv_cancel k hd.ne', Int.mul_emod_left k den⟩
    · rintro ⟨rfl, hr⟩
      exact (Int.ediv_mul_cancel (Int.dvd_of_emod_eq_zero hr)).symm
  rw [le_iff_lt_or_eq, ← Int.ediv_lt_iff_lt_mul hd, eq_iff, stickyQuotient]
  split <;> omega

/-! ### The value of a quotient -/

variable (e : Int)

/-- A multiple of the quotient's unit compares with the quotient as with the digits kept. -/
theorem quotient_alike_multiple (k : Int) :
    ((k : ℚ) * 2 ^ e ≤ num / den * 2 ^ e ↔ (k : ℚ) * 2 ^ e ≤ stickyQuotient num den * 2 ^ (e - 1)) ∧
      ((num : ℚ) / den * 2 ^ e ≤ k * 2 ^ e ↔ stickyQuotient num den * (2 : ℚ) ^ (e - 1) ≤ k * 2 ^ e) := by
  have den_pos : (0 : ℚ) < den := by exact_mod_cast hd
  have unit_pos : (0 : ℚ) < 2 ^ e := by positivity
  have half_pos : (0 : ℚ) < 2 ^ (e - 1) := by positivity
  have double : (k : ℚ) * 2 ^ e = (2 * k : Int) * 2 ^ (e - 1) := by
    rw [show e = e - 1 + 1 by ring, zpow_add_one₀ (by norm_num)]
    push_cast
    ring_nf
  constructor
  · rw [mul_le_mul_iff_left₀ unit_pos, le_div_iff₀ den_pos, double, mul_le_mul_iff_left₀ half_pos]
    exact_mod_cast le_stickyQuotient_iff hd k
  · rw [mul_le_mul_iff_left₀ unit_pos, div_le_iff₀ den_pos, double, mul_le_mul_iff_left₀ half_pos]
    exact_mod_cast stickyQuotient_le_iff hd k

variable (hn : 2 ^ 23 * den ≤ |num|)
include hn

/-- A quotient of 23 digits or more is far from every number of 24 bits with a smaller unit than its own. -/
theorem quotient_alike {m f : Int} (hm : |m| ≤ 2 ^ 23) :
    ((m : ℚ) * 2 ^ f ≤ num / den * 2 ^ e ↔ (m : ℚ) * 2 ^ f ≤ stickyQuotient num den * 2 ^ (e - 1)) ∧
      ((num : ℚ) / den * 2 ^ e ≤ m * 2 ^ f ↔ stickyQuotient num den * (2 : ℚ) ^ (e - 1) ≤ m * 2 ^ f) := by
  rcases le_or_gt e f with coarse | fine
  · have multiple : (m : ℚ) * 2 ^ f = (m * 2 ^ (f - e).toNat : Int) * 2 ^ e := by
      push_cast
      rw [mul_assoc, ← zpow_natCast, ← zpow_add₀ (by norm_num), Int.toNat_of_nonneg (by omega), sub_add_cancel]
    rw [multiple]
    exact quotient_alike_multiple hd e _
  · have small : |(m : ℚ) * 2 ^ f| < 2 ^ 23 * 2 ^ e := by
      rw [abs_mul, abs_of_pos (show (0 : ℚ) < 2 ^ f by positivity)]
      exact mul_lt_mul_of_le_of_lt_of_nonneg_of_pos (by exact_mod_cast hm)
        (zpow_lt_zpow_right₀ (by norm_num) fine) (by positivity) (by positivity)
    obtain ⟨lower, upper⟩ := abs_lt.1 small
    have den_pos : (0 : ℚ) < den := by exact_mod_cast hd
    have unit_pos : (0 : ℚ) < 2 ^ e := by positivity
    rcases le_abs'.1 hn with neg | pos
    · have far : (num : ℚ) / den * 2 ^ e ≤ (-2 ^ 23 : Int) * 2 ^ e := by
        rw [mul_le_mul_iff_left₀ unit_pos, div_le_iff₀ den_pos]
        exact_mod_cast (by linarith : num ≤ -2 ^ 23 * den)
      have far' := (quotient_alike_multiple hd e _).2.1 far
      push_cast at far far'
      constructor <;> constructor <;> intro <;> linarith
    · have far : ((2 ^ 23 : Int) : ℚ) * 2 ^ e ≤ num / den * 2 ^ e := by
        rw [mul_le_mul_iff_left₀ unit_pos, le_div_iff₀ den_pos]
        exact_mod_cast pos
      have far' := (quotient_alike_multiple hd e _).1.1 far
      push_cast at far far'
      constructor <;> constructor <;> intro <;> linarith

theorem quotient_roundAlike : RoundAlike (num / den * 2 ^ e) (stickyQuotient num den * 2 ^ (e - 1)) := by
  have mantissa : ∀ v, normalized32 v = true → |mant32 v| ≤ 2 ^ 23 := fun v hv => by
    have normal := (normalized32_iff v).1 hv
    exact abs_le.2 ⟨normal.ge, normal.le.le⟩
  have zero_alike := quotient_alike hd e hn (m := 0) (f := 0) (by norm_num)
  rw [Int.cast_zero, zero_mul] at zero_alike
  refine ⟨?_, fun v hv => (quotient_alike hd e hn (mantissa v hv)).1,
    fun v hv => (quotient_alike hd e hn (mantissa v hv)).2⟩
  rw [le_antisymm_iff, zero_alike.1, zero_alike.2, ← le_antisymm_iff]

end

/-- For a positive divisor: 64 more digits than a mantissa has are enough. -/
theorem Dyadic.div_roundAlike_of_pos {x y : Dyadic} (hx : x.mant ≠ 0) (hy : 0 < y.mant) (hle : y.mant ≤ 2 ^ 23) :
    RoundAlike (x.toRat / y.toRat) (x.div y).toRat := by
  have digits : x.div y = ⟨stickyQuotient (x.mant * 2 ^ 64) y.mant, x.exp - y.exp - 65⟩ := by
    simp only [Dyadic.div, if_neg hy.not_gt]
    rfl
  have value : x.toRat / y.toRat = (x.mant * 2 ^ 64 : Int) / y.mant * 2 ^ (x.exp - y.exp - 64) := by
    rw [Dyadic.toRat, Dyadic.toRat, zpow_sub₀ (by norm_num), zpow_sub₀ (by norm_num), mul_div_mul_comm]
    push_cast
    field_simp
  have large : 2 ^ 23 * y.mant ≤ |x.mant * 2 ^ 64| := by
    have := Int.one_le_abs hx
    rw [abs_mul, abs_of_pos (show (0 : Int) < 2 ^ 64 by norm_num)]
    linarith
  rw [digits, value, Dyadic.toRat, show x.exp - y.exp - 65 = x.exp - y.exp - 64 - 1 by ring]
  exact quotient_roundAlike hy _ large

/-- The quotient depends on the signs only through their product. -/
theorem Dyadic.div_neg_neg (x : Dyadic) {y : Dyadic} (hy : y.mant < 0) : x.div y = x.neg.div y.neg := by
  have pos : ¬ y.neg.mant < 0 := (Int.neg_pos.2 hy).not_gt
  simp only [Dyadic.div, if_pos hy, if_neg pos]
  rfl

theorem Dyadic.div_of_zero {x : Dyadic} (hx : x.mant = 0) (y : Dyadic) : (x.div y).mant = 0 := by
  simp [Dyadic.div, hx]

/-- The quotient that `Dyadic.div` answers rounds as the exact one. -/
theorem Dyadic.div_roundAlike (x : Dyadic) {y : Dyadic} (hy : Normal 23 y.mant) :
    RoundAlike (x.toRat / y.toRat) (x.div y).toRat := by
  by_cases hx : x.mant = 0
  · rw [Dyadic.toRat_eq_zero.2 hx, Dyadic.toRat_eq_zero.2 (Dyadic.div_of_zero hx y), zero_div]
    exact ⟨Iff.rfl, fun _ _ => Iff.rfl, fun _ _ => Iff.rfl⟩
  · rcases hy with ⟨lower, upper⟩ | ⟨lower, upper⟩
    · exact Dyadic.div_roundAlike_of_pos hx (by omega) (by omega)
    · rw [Dyadic.div_neg_neg x (by omega), ← neg_div_neg_eq, ← Dyadic.toRat_neg, ← Dyadic.toRat_neg]
      exact Dyadic.div_roundAlike_of_pos (neg_ne_zero.2 hx) (Int.neg_pos.2 (by omega)) (Int.neg_le_of_neg_le lower)

/-! ### What the operation leaves -/

theorem toRat_floatDividend (s : State) :
    s.floatDividend.toRat = if normalized32 s.regA then fval64 (s.regA ++ s.regB) else 0 := by
  unfold State.floatDividend
  split
  · exact toRat_value64 _
  · simp [Dyadic.toRat]

/-- DVF rounds the quotient of a normalized divisor into A, and B is free (R269). -/
theorem dvfOp_rounds (s : State) (w : Word32) : ∃ d b n,
    dvfOp s w = { s with regA := d, regB := b, draws := n } ∧ (normalized32 w = true →
      rounds32 s.zero32 ((if normalized32 s.regA then fval64 (s.regA ++ s.regB) else 0) / fval32 w) d) := by
  refine ⟨_, _, _, rfl, fun hw => ?_⟩
  rw [← toRat_floatDividend, ← toRat_value32]
  refine (Dyadic.div_roundAlike _ ((normalized32_iff w).1 hw)).rounds ?_
  rw [if_pos hw]
  exact rounds32_round32 s _ _ _

end Sys2Proof.Machine
end

section
/-! PROOFS. Return to memory of the floating point instructions (41_fixed_arith.md R202; 42_float.md R264 to R274). -/

namespace Sys2Proof.Machine

/-- A floating point reference as the fullword that it is whatever its H says (42_float.md R260). -/
def Ref.fullword (r : Ref) : Ref := { r with half := false }

/-! ### From what an operation leaves to the next state -/

section
variable {s u : State} {r : Ref} {ref : RefAccess} {k : Nat} {w : BitVec k}
  {load : State → Addr → Except Fault (BitVec k × State)} {op : State → BitVec k → State}
  (hr : ref = .ok (r, s)) (hi : r.imm = false) (hl : load s r.addr = .ok (w, u)) (turned : s.Turned u)
  (hm : s.mem.wf = true) (hw : s.returnable r.fullword = true) (len : Addr)
include hr hi hl turned hm hw

theorem floatReturn_completes {a b : Word32} {n : Nat}
    (hop : op (u.setOar r.addr) w = { u with regA := a, regB := b, oar := r.addr, draws := n }) :
    ∃ m', floatReturn load op ref len = .next { u.returnTurn r.fullword with
        regA := a, regB := b, mem := m', oar := r.addr, pc := s.pc + len, draws := n } ∧
      (u.returnTurn r.fullword).returned m' r.fullword a := by
  obtain ⟨m', t, hstate, hcase, hreturned⟩ :=
    State.return_registers hop (turned.wf hm) len ((turned.returnable_eq r.fullword).trans hw)
  have pc_eq : u.pc = s.pc := by rw [turned.frame]
  rw [pc_eq] at hstate
  exact ⟨m', hstate ▸ floatReturn_next.2 ⟨r, s, w, u, hr, hi, hl, hcase⟩, hreturned⟩

/-- An instruction whose operation leaves a word in A. -/
theorem floatReturn_single {P : Word32 → Prop}
    (hop : ∃ a n, op (u.setOar r.addr) w = { u.setOar r.addr with regA := a, draws := n } ∧ P a) :
    ∃ a m' n, floatReturn load op ref len = .next { u.returnTurn r.fullword with
        regA := a, mem := m', oar := r.addr, pc := s.pc + len, draws := n } ∧
      P a ∧ (u.returnTurn r.fullword).returned m' r.fullword a := by
  obtain ⟨a, n, ho, ha⟩ := hop
  obtain ⟨m', hx, hreturned⟩ := floatReturn_completes hr hi hl turned hm hw len ho
  rw [State.setOar_regB, ← u.returnTurn_regB r.fullword] at hx
  exact ⟨a, m', n, hx, ha, hreturned⟩

/-- An instruction whose operation leaves a word in A and anything in B. -/
theorem floatReturn_pair {P : Word32 → Prop}
    (hop : ∃ a b n, op (u.setOar r.addr) w = { u.setOar r.addr with regA := a, regB := b, draws := n } ∧ P a) :
    ∃ a b m' n, floatReturn load op ref len = .next { u.returnTurn r.fullword with
        regA := a, regB := b, mem := m', oar := r.addr, pc := s.pc + len, draws := n } ∧
      P a ∧ (u.returnTurn r.fullword).returned m' r.fullword a := by
  obtain ⟨a, b, n, ho, ha⟩ := hop
  obtain ⟨m', hx, hreturned⟩ := floatReturn_completes hr hi hl turned hm hw len ho
  exact ⟨a, b, m', n, hx, ha, hreturned⟩

/-- An instruction whose operation leaves a double word in A and B. -/
theorem floatReturn_double {P : BitVec 64 → Prop}
    (hop : ∃ (d : BitVec 64) (n : Nat), op (u.setOar r.addr) w =
      { u.setOar r.addr with regA := d.extractLsb' 32 32, regB := d.extractLsb' 0 32, draws := n } ∧ P d) :
    ∃ (d : BitVec 64) (m' : Memory) (n : Nat), floatReturn load op ref len = .next { u.returnTurn r.fullword with
        regA := d.extractLsb' 32 32, regB := d.extractLsb' 0 32, mem := m', oar := r.addr, pc := s.pc + len,
        draws := n } ∧
      P d ∧ (u.returnTurn r.fullword).returned m' r.fullword (d.extractLsb' 32 32) := by
  obtain ⟨d, n, ho, hd⟩ := hop
  obtain ⟨m', hx, hreturned⟩ := floatReturn_completes hr hi hl turned hm hw len ho
  exact ⟨d, m', n, hx, hd, hreturned⟩

end

/-! ### Each instruction -/

section
variable {s : State} {r : Ref} {ref : RefAccess} (hr : ref = .ok (r, s)) (hi : r.imm = false)
  (hl : s.readable32 r.addr = true) (hm : s.mem.wf = true) (hw : s.returnable r.fullword = true) (len : Addr)
include hr hi hl hm hw

/-- ADFR, in either form (R264). -/
theorem adfReturn_completes : ∃ a m' n, floatReturn State.load32 adfOp ref len =
      .next { s.ioTurn.returnTurn r.fullword with
        regA := a, mem := m', oar := r.addr, pc := s.pc + len, draws := n } ∧
    rounds32 s.zero32 (fval32 s.regA + fval32 (s.ioTurn.mem.word r.addr)) a ∧
    (s.ioTurn.returnTurn r.fullword).returned m' r.fullword a :=
  floatReturn_single hr hi (State.load32_of_readable hl) s.ioTurn_turned hm hw len
    (by simpa [State.setOar, State.zero32] using adfOp_rounds (s.ioTurn.setOar r.addr) (s.ioTurn.mem.word r.addr))

/-- SBFR, in either form (R266). -/
theorem sbfReturn_completes : ∃ a m' n, floatReturn State.load32 sbfOp ref len =
      .next { s.ioTurn.returnTurn r.fullword with
        regA := a, mem := m', oar := r.addr, pc := s.pc + len, draws := n } ∧
    rounds32 s.zero32 (fval32 s.regA - fval32 (s.ioTurn.mem.word r.addr)) a ∧
    (s.ioTurn.returnTurn r.fullword).returned m' r.fullword a :=
  floatReturn_single hr hi (State.load32_of_readable hl) s.ioTurn_turned hm hw len
    (by simpa [State.setOar, State.zero32] using sbfOp_rounds (s.ioTurn.setOar r.addr) (s.ioTurn.mem.word r.addr))

/-- MLFR, in either form (R268). -/
theorem mlfReturn_completes : ∃ (d : BitVec 64) (m' : Memory) (n : Nat), floatReturn State.load32 mlfOp ref len =
      .next { s.ioTurn.returnTurn r.fullword with
        regA := d.extractLsb' 32 32, regB := d.extractLsb' 0 32, mem := m', oar := r.addr, pc := s.pc + len,
        draws := n } ∧
    rounds64 s.zero56 (fvalNormal32 s.regA * fvalNormal32 (s.ioTurn.mem.word r.addr)) d ∧
    (inRange64 (fvalNormal32 s.regA * fvalNormal32 (s.ioTurn.mem.word r.addr)) →
      fval64 d = fvalNormal32 s.regA * fvalNormal32 (s.ioTurn.mem.word r.addr) ∧ d.getLsbD 8 = false) ∧
    (s.ioTurn.returnTurn r.fullword).returned m' r.fullword (d.extractLsb' 32 32) := by
  obtain ⟨d, m', n, hx, ⟨hd, hexact⟩, hreturned⟩ :=
    floatReturn_double hr hi (State.load32_of_readable hl) s.ioTurn_turned hm hw len
      (mlfOp_exact (s.ioTurn.setOar r.addr) (s.ioTurn.mem.word r.addr))
  simp only [State.setOar, State.zero56, State.ioTurn_regA, State.ioTurn_cfg] at hd hexact
  exact ⟨d, m', n, hx, hd, hexact, hreturned⟩

/-- DVFR, in either form (R270). -/
theorem dvfReturn_completes : ∃ d b m' n, floatReturn State.load32 dvfOp ref len =
      .next { s.ioTurn.returnTurn r.fullword with
        regA := d, regB := b, mem := m', oar := r.addr, pc := s.pc + len, draws := n } ∧
    (normalized32 (s.ioTurn.mem.word r.addr) = true → rounds32 s.zero32
      ((if normalized32 s.regA then fval64 (s.regA ++ s.regB) else 0) / fval32 (s.ioTurn.mem.word r.addr)) d) ∧
    (s.ioTurn.returnTurn r.fullword).returned m' r.fullword d :=
  floatReturn_pair hr hi (State.load32_of_readable hl) s.ioTurn_turned hm hw len
    (by simpa [State.setOar, State.zero32] using dvfOp_rounds (s.ioTurn.setOar r.addr) (s.ioTurn.mem.word r.addr))

variable (hl2 : s.readable32 (r.addr + 2) = true)
include hl2

/-- AFDR, in either form (R272). -/
theorem afdReturn_completes : ∃ (d : BitVec 64) (m' : Memory) (n : Nat), floatReturn State.load64 afdOp ref len =
      .next { s.ioTurn.ioTurn.returnTurn r.fullword with
        regA := d.extractLsb' 32 32, regB := d.extractLsb' 0 32, mem := m', oar := r.addr, pc := s.pc + len,
        draws := n } ∧
    rounds64 s.zero56 (fval64 (s.regA ++ s.regB) +
      fval64 (s.ioTurn.mem.word r.addr ++ s.ioTurn.ioTurn.mem.word (r.addr + 2))) d ∧
    (s.ioTurn.ioTurn.returnTurn r.fullword).returned m' r.fullword (d.extractLsb' 32 32) :=
  floatReturn_double hr hi (State.load64_of_readable hl hl2) (s.ioTurn_turned.trans s.ioTurn.ioTurn_turned) hm hw len
    (by simpa [State.setOar, State.zero56] using afdOp_rounds (s.ioTurn.ioTurn.setOar r.addr) _)

/-- SFDR, in either form (R274). -/
theorem sfdReturn_completes : ∃ (d : BitVec 64) (m' : Memory) (n : Nat), floatReturn State.load64 sfdOp ref len =
      .next { s.ioTurn.ioTurn.returnTurn r.fullword with
        regA := d.extractLsb' 32 32, regB := d.extractLsb' 0 32, mem := m', oar := r.addr, pc := s.pc + len,
        draws := n } ∧
    rounds64 s.zero56 (fval64 (s.regA ++ s.regB) -
      fval64 (s.ioTurn.mem.word r.addr ++ s.ioTurn.ioTurn.mem.word (r.addr + 2))) d ∧
    (s.ioTurn.ioTurn.returnTurn r.fullword).returned m' r.fullword (d.extractLsb' 32 32) :=
  floatReturn_double hr hi (State.load64_of_readable hl hl2) (s.ioTurn_turned.trans s.ioTurn.ioTurn_turned) hm hw len
    (by simpa [State.setOar, State.zero56] using sfdOp_rounds (s.ioTurn.ioTurn.setOar r.addr) _)

end

/-- Settles O40: what the base instructions leave (O37, O38 and `dvfOp_rounds`), and then the store of A. -/
theorem floatReturns : Obligations.FloatReturns := by
  unfold Obligations.FloatReturns
  intro s r hm hi hl hw
  have direct : ∀ {m7}, s.shortReturnRef m7 = r → s.direct (s.shortReturnRef m7) = .ok (r, s) := congrArg s.direct
  exact ⟨fun m7 hr => adfReturn_completes (direct hr) hi hl hm hw 1,
    fun t x2 i m m16 hr => adfReturn_completes hr hi hl hm hw 2,
    fun m7 hr => sbfReturn_completes (direct hr) hi hl hm hw 1,
    fun t x2 i m m16 hr => sbfReturn_completes hr hi hl hm hw 2,
    fun m7 hr => mlfReturn_completes (direct hr) hi hl hm hw 1,
    fun t x2 i m h m16 hr => mlfReturn_completes hr hi hl hm hw 2,
    fun m7 hr => dvfReturn_completes (direct hr) hi hl hm hw 1,
    fun t x2 i m h m16 hr => dvfReturn_completes hr hi hl hm hw 2,
    fun hl2 => ⟨fun m7 hr => afdReturn_completes (direct hr) hi hl hm hw 1 hl2,
      fun t x2 i m m16 hr => afdReturn_completes hr hi hl hm hw 2 hl2,
      fun m7 hr => sfdReturn_completes (direct hr) hi hl hm hw 1 hl2,
      fun t x2 i m m16 hr => sfdReturn_completes hr hi hl hm hw 2 hl2⟩⟩

end Sys2Proof.Machine
end

section
/-! PROOFS. Floating point division in the registers (42_float.md R260, R269). -/

namespace Sys2Proof.Machine

/-- An instruction whose operation leaves a word in A and anything in B. -/
theorem floatRegister_pair {s u : State} {r : Ref} {ref : RefAccess} {k : Nat} {w : BitVec k}
    {load : State → Addr → Except Fault (BitVec k × State)} {op : State → BitVec k → State} {P : Word32 → Prop}
    (hr : ref = .ok (r, s)) (hi : r.imm = false) (hl : load s r.addr = .ok (w, u)) (hpc : u.pc = s.pc) (len : Addr)
    (hop : ∃ a b n, op (u.setOar r.addr) w = { u.setOar r.addr with regA := a, regB := b, draws := n } ∧ P a) :
    ∃ a b n, floatRegister load op ref len = .next { u with
      regA := a, regB := b, oar := r.addr, pc := s.pc + len, draws := n } ∧ P a := by
  obtain ⟨a, b, n, ho, ha⟩ := hop
  refine ⟨a, b, n, floatRegister_next.2 ⟨r, s, w, u, hr, hi, hl, ?_⟩, ha⟩
  rw [ho, ← hpc]
  rfl

/-- DVF, in either form (R269). -/
theorem dvf_completes {s : State} {r : Ref} {ref : RefAccess} (hr : ref = .ok (r, s)) (hi : r.imm = false)
    (hl : s.readable32 r.addr = true) (len : Addr) :
    ∃ d b n, floatRegister State.load32 dvfOp ref len = .next { s.ioTurn with
        regA := d, regB := b, oar := r.addr, pc := s.pc + len, draws := n } ∧
      (normalized32 (s.ioTurn.mem.word r.addr) = true → rounds32 s.zero32
        ((if normalized32 s.regA then fval64 (s.regA ++ s.regB) else 0) / fval32 (s.ioTurn.mem.word r.addr)) d) :=
  floatRegister_pair hr hi (State.load32_of_readable hl) s.ioTurn_pc len
    (by simpa [State.setOar, State.zero32] using dvfOp_rounds (s.ioTurn.setOar r.addr) (s.ioTurn.mem.word r.addr))

/-- Settles O39: no normalized number tells the value that `Dyadic.div` answers from the exact quotient, so that its
rounding is one of the quotient (`dvfOp_rounds`). -/
theorem floatDivide : Obligations.FloatDivide := by
  unfold Obligations.FloatDivide
  exact fun s r hi hl => ⟨fun x1 m7 hr => dvf_completes (congrArg s.direct hr) hi hl 1,
    fun t x1 x2 i m h m16 hr => dvf_completes hr hi hl 2⟩

end Sys2Proof.Machine
end

section
/-! PROOFS. RTA and the skips: SAM on A, ICN and ICL on an index register (43_logical_rta_sam.md R307, R308; 45_index.md
R351, R352, R355; 60_exceptions.md R475). -/

namespace Sys2Proof.Machine

/-! ### The comparison of ICL -/

/-- Numbers of one sign compare alike in both readings; of two signs, the negative one is the less as a signed number and
the greater as an unsigned one (R352, D17). -/
theorem State.indexLess_iff (s : State) (x v : Addr) : s.indexLess x v = true ↔
    if s.cfg.iclSigned then x.toInt < v.toInt else x.toNat < v.toNat := by
  rw [← BitVec.slt_iff_toInt_lt, ← BitVec.ult_iff_toNat_lt, State.indexLess]
  by_cases sameSign : x.msb = v.msb
  · rw [if_pos sameSign, BitVec.slt_eq_ult_of_msb_eq sameSign, ite_self]
    rfl
  · have negative : x.msb = !v.msb := Bool.eq_not_of_ne sameSign
    rw [if_neg sameSign, BitVec.slt_eq_not_ult_of_msb_neq sameSign, BitVec.ult_eq_msb_of_msb_neq sameSign, negative]
    split <;> rfl

/-! ### Skips -/

theorem skipMasked_completes {s u : State} {r : Ref} {v : Word32} {ref : RefAccess} (hr : ref = .ok (r, s))
    (hv : s.operand r = .ok (v, u)) (len : Addr) :
    skipMasked ref len = .next { u with
      oar := r.addr, pc := s.pc + (if s.regA &&& v = 0#32 then len else len + 2) } := by
  rw [skipMasked_next.2 ⟨r, s, v, u, hr, hv, rfl⟩, (State.operand_turned hv).frame]
  simp only [bne_iff_ne, ite_not]
  rfl

theorem testIndex_completes {s u : State} {r : Ref} {v : Addr} {ref : RefAccess} (hr : ref = .ok (r, s))
    (hv : s.indexOperand r = .ok (v, u)) (p : Addr → Addr → Bool) (n : BitVec 4) (len : Addr) :
    testIndex p n ref len = .next { u with
      oar := r.addr, pc := s.pc + (if p (s.xr n) v then len + 2 else len) } := by
  rw [testIndex_next.2 ⟨r, s, v, u, hr, hv, rfl⟩, (State.indexOperand_turned hv).frame]
  rfl

/-- ICN, in either form (R351). -/
theorem icn_completes {s u : State} {r : Ref} {v : Addr} {ref : RefAccess} (hr : ref = .ok (r, s))
    (hv : s.indexOperand r = .ok (v, u)) (n : BitVec 4) (len : Addr) :
    testIndex (fun x v => x != v) n ref len = .next { u with
      oar := r.addr, pc := s.pc + (if s.xr n = v then len else len + 2) } := by
  simp only [testIndex_completes hr hv, bne_iff_ne, ite_not]

/-- ICL compares as the configuration says in the state `t` before the reference is formed, which forming it keeps
(R352). -/
theorem icl_completes {s t u : State} {r : Ref} {v : Addr} {ref : RefAccess} (hr : ref = .ok (r, s))
    (hreads : ref.Reads t) (hv : s.indexOperand r = .ok (v, u)) (n : BitVec 4) (len : Addr) :
    testIndex t.indexLess n ref len = .next { u with
      oar := r.addr, pc := s.pc + (if (if s.cfg.iclSigned then (s.xr n).toInt < v.toInt
        else (s.xr n).toNat < v.toNat) then len + 2 else len) } := by
  have cfg_eq : s.cfg = t.cfg := by rw [(hreads hr).frame]
  simp only [testIndex_completes hr hv, State.indexLess_iff, cfg_eq]

/-- Settles O45: the short and the long form of each skip differ in their reference and length alone, and ICL compares
in the reading that ICL_SIGNED names (`State.indexLess_iff`). -/
theorem skipsComplete : Obligations.SkipsComplete := by
  unfold Obligations.SkipsComplete
  exact ⟨fun s u r v hv => ⟨fun x1 m7 hr => skipMasked_completes (congrArg s.direct hr) hv 1,
      fun t x1 x2 i m h m16 hr hh => skipMasked_completes (noHalfLogical_ok.2 ⟨hr, hh⟩) hv 2⟩,
    fun s u v x1 m7 hv => icn_completes rfl hv _ 1,
    fun s t u r v x1 x2 i m m16 hr hv => ⟨icn_completes hr hv x2 2, icl_completes hr State.longRef_reads hv x2 2⟩⟩

/-! ### RTA -/

/-- RTA, in either form: the levels it completes are those whose return location it reads (R307, R475). -/
theorem returnAddress_completes {s : State} {r : Ref} {ref : RefAccess} (hr : ref = .ok (r, s))
    (hl : s.readable32 r.addr = true) :
    ∃ v, returnAddress ref = .next { s.ioTurn with
        oar := r.addr, pc := (s.ioTurn.mem.word r.addr).extractLsb' 0 18, inService := v } ∧
      ∀ l : Fin 16, v.getLsbD l = (s.inService.getLsbD l && decide (s.cfg.returnAt.get l ≠ r.addr)) := by
  refine ⟨(s.ioTurn.completeLevel r.addr).inService,
    returnAddress_next.2 ⟨r, s, _, _, hr, State.load32_of_readable hl, rfl⟩, fun l => ?_⟩
  rw [State.completeLevel_getLsbD _ _ l.isLt, State.returnLoc_fin, State.ioTurn_inService, State.ioTurn_cfg]

/-- Settles O43: a short reference is a fullword's whatever its H, a long one stops on M = 1 or H = 1. -/
theorem returnAddressCompletes : Obligations.ReturnAddressCompletes := by
  unfold Obligations.ReturnAddressCompletes
  exact fun s r hl => ⟨fun x1 m7 hr => returnAddress_completes (congrArg s.direct hr) hl,
    fun t x1 x2 i m h m16 hr hi hh => returnAddress_completes (noDesignator_ok.2 ⟨hr, hi, hh⟩) hl⟩

end Sys2Proof.Machine
end

section
/-! PROOFS. Shift instructions (44_shift.md R330 to R338; 30_encoding.md R103, R122). -/

namespace Sys2Proof.Machine

/-! ### Rotations, bit by bit -/

section
variable {w : Nat} (x : BitVec w)

/-- Rotation to the right by `r` places takes bit `(i + r) mod w` to bit `i`. -/
theorem getLsbD_rotateRight_eq_mod (r : Nat) {i : Nat} (hi : i < w) :
    (x.rotateRight r).getLsbD i = x.getLsbD ((i + r) % w) := by
  have hr : r % w < w := Nat.mod_lt r (by omega)
  rw [BitVec.getLsbD_rotateRight, Nat.add_mod_eq_ite, Nat.mod_eq_of_lt hi]
  by_cases inside : i < w - r % w
  · rw [if_neg (by omega), decide_eq_true inside, Nat.add_comm i]
    rfl
  · rw [if_pos (by omega), decide_eq_false inside, decide_eq_true hi, show i - (w - r % w) = i + r % w - w by omega]
    rfl

/-- Rotation to the left by `r` places takes bit `i` to bit `(i + r) mod w`. -/
theorem getLsbD_rotateLeft_mod (r : Nat) {i : Nat} (hi : i < w) :
    (x.rotateLeft r).getLsbD ((i + r) % w) = x.getLsbD i := by
  have hr : r % w < w := Nat.mod_lt r (by omega)
  rw [BitVec.getLsbD_rotateLeft, decide_eq_true (Nat.mod_lt (i + r) (by omega)), Nat.add_mod_eq_ite,
    Nat.mod_eq_of_lt hi]
  by_cases inside : i + r % w < w
  · rw [if_neg (by omega), decide_eq_false (by omega), Nat.add_sub_cancel]
    rfl
  · rw [if_pos (by omega), decide_eq_true (by omega), show w - r % w + (i + r % w - w) = i by omega]
    rfl

/-- Bits may be compared at places `(i + r) mod w`: every place is one of these. -/
theorem eq_of_getLsbD_mod (r : Nat) {x y : BitVec w}
    (h : ∀ i < w, x.getLsbD ((i + r) % w) = y.getLsbD ((i + r) % w)) : x = y := by
  refine BitVec.eq_of_getLsbD_eq fun k hk => ?_
  have place : ((k + r * (w - 1)) % w + r) % w = k := by
    rw [Nat.mod_add_mod, Nat.add_assoc, ← Nat.mul_add_one, Nat.sub_add_cancel (by omega), Nat.add_mul_mod_self_right,
      Nat.mod_eq_of_lt hk]
  exact place ▸ h _ (Nat.mod_lt _ (by omega))

theorem rotateRight_add (m n : Nat) : x.rotateRight (m + n) = (x.rotateRight m).rotateRight n := by
  refine BitVec.eq_of_getLsbD_eq fun i hi => ?_
  rw [getLsbD_rotateRight_eq_mod _ _ hi, getLsbD_rotateRight_eq_mod _ _ hi,
    getLsbD_rotateRight_eq_mod _ _ (Nat.mod_lt _ (by omega)), Nat.mod_add_mod, Nat.add_assoc, Nat.add_comm n]

theorem rotateLeft_add (m n : Nat) : x.rotateLeft (m + n) = (x.rotateLeft m).rotateLeft n := by
  refine eq_of_getLsbD_mod (m + n) fun i hi => ?_
  rw [getLsbD_rotateLeft_mod _ _ hi, ← Nat.add_assoc, ← Nat.mod_add_mod,
    getLsbD_rotateLeft_mod _ _ (Nat.mod_lt _ (by omega)), getLsbD_rotateLeft_mod _ _ hi]

theorem rotateLeft_zero : x.rotateLeft 0 = x := by
  refine eq_of_getLsbD_mod 0 fun i hi => ?_
  rw [getLsbD_rotateLeft_mod _ _ hi, Nat.add_zero, Nat.mod_eq_of_lt hi]

theorem rotateRight_zero : x.rotateRight 0 = x := by
  refine BitVec.eq_of_getLsbD_eq fun i hi => ?_
  rw [getLsbD_rotateRight_eq_mod _ _ hi, Nat.add_zero, Nat.mod_eq_of_lt hi]

end

/-! ### A shift by n places is n shifts by one place -/

/-- A family of maps that adds up in its index is its first member repeated. -/
theorem iterate_eq_of_add {α : Type} {f : Nat → α → α} (zero : ∀ a, f 0 a = a)
    (add : ∀ m n a, f (m + n) a = f n (f m a)) (n : Nat) (a : α) : (f 1)^[n] a = f n a := by
  induction n with
  | zero => exact (zero a).symm
  | succ n ih => rw [Function.iterate_succ_apply', ih, ← add]

section
variable {w : Nat} (x : BitVec w) (n : Nat)

theorem iterate_shiftLeft_one : (fun v : BitVec w => v <<< 1)^[n] x = x <<< n :=
  iterate_eq_of_add (f := fun n (v : BitVec w) => v <<< n) BitVec.shiftLeft_zero
    (fun m n v => v.shiftLeft_add m n) n x

theorem iterate_ushiftRight_one : (fun v : BitVec w => v >>> 1)^[n] x = x >>> n :=
  iterate_eq_of_add (f := fun n (v : BitVec w) => v >>> n) BitVec.ushiftRight_zero
    (fun m n v => v.shiftRight_add m n) n x

theorem iterate_sshiftRight_one : (fun v : BitVec w => v.sshiftRight 1)^[n] x = x.sshiftRight n :=
  iterate_eq_of_add (f := fun n v => v.sshiftRight n) (fun _ => BitVec.sshiftRight_zero)
    (fun _ _ _ => BitVec.sshiftRight_add) n x

theorem iterate_rotateLeft_one : (fun v : BitVec w => v.rotateLeft 1)^[n] x = x.rotateLeft n :=
  iterate_eq_of_add (f := fun n v => v.rotateLeft n) rotateLeft_zero (fun m n v => rotateLeft_add v m n) n x

theorem iterate_rotateRight_one : (fun v : BitVec w => v.rotateRight 1)^[n] x = x.rotateRight n :=
  iterate_eq_of_add (f := fun n v => v.rotateRight n) rotateRight_zero (fun m n v => rotateRight_add v m n) n x

end

/-! ### The words and the count -/

/-- A halfword of the shift format is the instruction that its secondary code `s0`, `c` selects, with the X1 and J of
the halfword (R103, R122). -/
theorem decode_shiftHalf (s0 : BitVec 1) (c : BitVec 2) (x1 : BitVec 3) (j : BitVec 5)
    (i : BitVec 3 → BitVec 5 → Instr)
    (hi : ∀ h : Half, h.getLsbD 10 = s0.getLsbD 0 → h.getLsbD 6 = c.getLsbD 1 → h.getLsbD 5 = c.getLsbD 0 →
      decodeShift h = i (h.extractLsb' 7 3) (h.extractLsb' 0 5)) :
    decode (halfBytes (1#5 ++ s0 ++ x1 ++ c ++ j)) = .ok (i x1 j, []) :=
  decode_shiftWord s0 c x1 j (i x1 j) [] fun h op e0 ex e1 e2 ej => by
    rw [decodeShort_shift op, hi h e0 e1 e2, ex, ej]

theorem State.shiftCount_eq (s : State) (x1 : BitVec 3) (j : BitVec 5) : s.shiftCount x1 j =
    ((if x1 = 0 then 0 else (s.xr (x1.zeroExtend 4)).toNat) + j.toNat) % 256 := by
  rw [State.shiftCount, State.idx1, apply_ite BitVec.toNat]
  rfl

/-- Settles O44: the shifts by E places that the model makes at once are E shifts by one place (`iterate_eq_of_add`; of
the rotations, by where each bit goes), and the eight words differ in their secondary code alone. -/
theorem shiftsAreOnePlaceRepeated : Obligations.ShiftsAreOnePlaceRepeated := by
  unfold Obligations.ShiftsAreOnePlaceRepeated
  intro s x1 j
  simp only [← State.shiftCount_eq, iterate_shiftLeft_one, iterate_ushiftRight_one, iterate_sshiftRight_one,
    iterate_rotateLeft_one, iterate_rotateRight_one]
  refine ⟨decode_shiftHalf 0 0 x1 j .slld ?_, rfl, decode_shiftHalf 0 1 x1 j .slcd ?_, rfl,
    decode_shiftHalf 0 2 x1 j .sll ?_, rfl, decode_shiftHalf 0 3 x1 j .srld ?_, rfl,
    decode_shiftHalf 1 0 x1 j .srad ?_, rfl, decode_shiftHalf 1 1 x1 j .srcd ?_, rfl,
    decode_shiftHalf 1 2 x1 j .sra ?_, rfl, decode_shiftHalf 1 3 x1 j .src ?_, rfl⟩
  all_goals
    intro h e0 e1 e2
    rw [decodeShift, e0, e1, e2]
    rfl

end Sys2Proof.Machine
end

section
/-! PROOFS. IMN and IMP, which modify an index register (45_index.md R350, R353, R354, R355). -/

namespace Sys2Proof.Machine

/-- Between the reference and the write only the I/O unit's turn comes, which leaves the index registers and `pc` as they
were. -/
theorem modifyIndex_completes {s u : State} {r : Ref} {v : Addr} {ref : RefAccess} (hr : ref = .ok (r, s))
    (hv : s.indexOperand r = .ok (v, u)) (op : Addr → Addr → Addr) (n : BitVec 4) (len : Addr) :
    modifyIndex op n ref len = .next { u.setXr n (op (s.xr n) v) with oar := r.addr, pc := s.pc + len } := by
  rw [modifyIndex_next.2 ⟨r, s, v, u, hr, hv, rfl⟩, (State.indexOperand_turned hv).frame]
  rfl

/-- Settles O46: the forms differ in their operation, object register, reference and length alone. -/
theorem indexModifiesComplete : Obligations.IndexModifiesComplete := by
  unfold Obligations.IndexModifiesComplete
  refine ⟨fun s u v x1 m7 hv => ?imnShort, fun s t u r v x1 x2 i m m16 hr hv => ⟨?imnLong, ?impLong⟩⟩
  case imnShort => exact modifyIndex_completes rfl hv (fun x v => x - v) (x1.zeroExtend 4) 1
  case imnLong => exact modifyIndex_completes hr hv (fun x v => x - v) x2 2
  case impLong => exact modifyIndex_completes hr hv (fun x v => x + v) x2 2

end Sys2Proof.Machine
end

section
/-! PROOFS. Jumps but the one to a subroutine (46_jump.md R370 to R381). -/

namespace Sys2Proof.Machine

/-- A jump changes `pc` alone, by a condition on the state before it (R370). -/
theorem State.jumpIf_eq (s : State) {taken : Bool} {p : Prop} [Decidable p] (hp : taken = true ↔ p)
    (target len : Addr) : s.jumpIf taken target len = .next { s with pc := if p then target else s.pc + len } := by
  rw [State.jumpIf, if_congr hp rfl rfl]
  split <;> rfl

/-! ### Conditions on A -/

theorem State.aNonzero_iff (s : State) : s.aNonzero = true ↔ s.regA ≠ 0 := bne_iff_ne

theorem State.aNegative_iff (s : State) : s.aNegative = true ↔ s.regA.toInt < 0 := by
  rw [State.aNegative, BitVec.msb_eq_toInt, decide_eq_true_iff]

theorem State.not_aNegative_iff (s : State) : (!s.aNegative) = true ↔ 0 ≤ s.regA.toInt := by
  rw [Bool.not_eq_true', ← Bool.not_eq_true, s.aNegative_iff, not_lt]

/-- Settles O47: each word is the encoding of its jump, so O1 reads it back, and the jumps differ in their condition,
target and length alone. -/
theorem jumpsOnACompletes : Obligations.JumpsOnACompletes := by
  unfold Obligations.JumpsOnACompletes
  intro s p m7 m18
  exact ⟨decodeInvertsEncode (.jru p m7) [] rfl, rfl,
    decodeInvertsEncode (.jrn p m7) [] rfl, s.jumpIf_eq s.aNonzero_iff _ 1,
    decodeInvertsEncode (.jrg p m7) [] rfl, s.jumpIf_eq s.not_aNegative_iff _ 1,
    decodeInvertsEncode (.jrl p m7) [] rfl, s.jumpIf_eq s.aNegative_iff _ 1,
    decodeInvertsEncode (.jgu m18) [] rfl, rfl,
    decodeInvertsEncode (.jan m18) [] rfl, s.jumpIf_eq s.aNonzero_iff m18 2,
    decodeInvertsEncode (.jag m18) [] rfl, s.jumpIf_eq s.not_aNegative_iff m18 2,
    decodeInvertsEncode (.jal m18) [] rfl, s.jumpIf_eq s.aNegative_iff m18 2⟩

/-! ### Program flags -/

/-- Two vectors have a set bit in common exactly where their conjunction is not zero. -/
theorem and_ne_zero_iff_exists_bit {w : Nat} (x y : BitVec w) :
    x &&& y ≠ 0#w ↔ ∃ i < w, x.getLsbD i = true ∧ y.getLsbD i = true := by
  rw [ne_eq, BitVec.eq_of_getLsbD_eq_iff]
  simp

/-- The program flags are SR8 to SR11 (R379). -/
theorem State.getLsbD_programFlags (s : State) {i : Nat} (hi : i < 4) :
    (s.sr.extractLsb' 8 4).getLsbD i = s.srBit (8 + i) := by
  rw [BitVec.getLsbD_extractLsb', decide_eq_true hi, Bool.true_and, State.srBit]

/-- Bits 3, 2, 1 and 0 of the selector, bits 6 to 9 of the instruction, test SR11, SR10, SR9 and SR8 (R379, D19). -/
theorem State.flagSelected_iff (s : State) (f : BitVec 4) : (s.sr.extractLsb' 8 4 &&& f != 0#4) = true ↔
    ((f.getLsbD 3 && s.srBit 11) || (f.getLsbD 2 && s.srBit 10) || (f.getLsbD 1 && s.srBit 9) ||
      (f.getLsbD 0 && s.srBit 8)) = true := by
  have selected : (s.sr.extractLsb' 8 4 &&& f != 0#4) = true ↔
      ∃ i < 4, s.srBit (8 + i) = true ∧ f.getLsbD i = true := by
    rw [bne_iff_ne, and_ne_zero_iff_exists_bit]
    exact exists_congr fun i => and_congr_right fun hi => by rw [s.getLsbD_programFlags hi]
  simp only [selected, Nat.exists_lt_succ_right, Nat.not_lt_zero, false_and, exists_false, Bool.or_eq_true,
    Bool.and_eq_true]
  tauto

/-- Settles O48: the three jumps differ in their condition alone. -/
theorem statusJumpsComplete : Obligations.StatusJumpsComplete := by
  unfold Obligations.StatusJumpsComplete
  exact fun s m18 => ⟨fun f => s.jumpIf_eq (s.flagSelected_iff f) m18 2, fun n => s.jumpIf_eq Iff.rfl m18 2,
    fun sw => s.jumpIf_eq Iff.rfl m18 2⟩

end Sys2Proof.Machine
end

section
/-! PROOFS. Instructions without a memory reference: enables, modes, the exchange, flags, HLT and LXA (47_nonmem.md
R402 to R409, R412 to R415). -/

namespace Sys2Proof.Machine

/-- The secondary code alone, not the seven bits after it, selects an instruction without flags (47_nonmem.md R402). -/
theorem decode_nonMemory_ignoring (sec : BitVec 4) {i : Instr}
    (hi : ∀ h : Half, h.extractLsb' 7 4 = sec → decodeNonMemory h = .ok i) (x : BitVec 7) :
    decode (halfBytes (0b00000#5 ++ sec ++ x)) = .ok (i, []) :=
  decode_nonMemoryWord sec x i [] fun h op code _ => (decodeShort_nonMemory op).trans (hi h code)

/-- Settles O50: each word by its secondary code, each bit by its mask. -/
theorem enablesModesAndExchange : Obligations.EnablesModesAndExchange := by
  unfold Obligations.EnablesModesAndExchange
  intro s
  refine ⟨decode_nonMemory_ignoring _ ?_, rfl, decode_nonMemory_ignoring _ ?_, rfl, decode_nonMemory_ignoring _ ?_, rfl,
    decode_nonMemory_ignoring _ ?_, rfl, decode_nonMemory_ignoring _ ?_, rfl, decode_nonMemory_ignoring _ ?_, rfl,
    decode_nonMemory_ignoring _ ?_, rfl, decode_nonMemory_ignoring _ ?_, rfl⟩
  all_goals
    intro h code
    rw [decodeNonMemory, code]
    rfl

/-- The selector's bits stand at SR8 to SR11 (R408). -/
theorem programFlags_getLsbD_eq (f : BitVec 4) (n : Nat) :
    (programFlags f).getLsbD n = (decide (8 ≤ n) && f.getLsbD (n - 8)) := by
  rw [programFlags, BitVec.getLsbD_append, BitVec.getLsbD_append]
  by_cases low : n < 8
  · simp [low]
  · by_cases high : n - 8 < 4
    · simp [low, high, show 8 ≤ n by omega]
    · simp [low, high, BitVec.getLsbD_of_ge f (n - 8) (by omega)]

theorem execHlt_present {s : State} (h : s.testSignal = true) :
    execHlt s = .next { s with halted := true, pc := s.pc + 1 } := by
  rw [execHlt, if_pos h]
  rfl

theorem execHlt_absent {s : State} (h : s.testSignal = false) : execHlt s = .next { s with pc := s.pc + 1 } := by
  rw [execHlt, if_neg (ne_true_of_eq_false h)]
  rfl

theorem execLxa_of_ne (s : State) {f : BitVec 4} (hf : f ≠ 0) :
    execLxa f s = .next { s.setXr f (s.regA.extractLsb' 0 18) with pc := s.pc + 1 } :=
  if_neg hf

/-- Settles O51: SET and RST by where the selector's bits stand, HLT by the test signal. -/
theorem flagsHaltAndIndexFromA : Obligations.FlagsHaltAndIndexFromA := by
  unfold Obligations.FlagsHaltAndIndexFromA
  refine fun s => ⟨fun f => ⟨s.sr ||| programFlags f, rfl, fun n _ => ?set⟩,
    fun f => ⟨s.sr &&& ~~~programFlags f, rfl, fun n hn => ?reset⟩, execHlt_present, execHlt_absent,
    fun f => execLxa_of_ne s⟩
  case set => rw [BitVec.getLsbD_or, programFlags_getLsbD_eq]
  case reset => rw [BitVec.getLsbD_and, BitVec.getLsbD_not, programFlags_getLsbD_eq, decide_eq_true hn, Bool.true_and]

end Sys2Proof.Machine
end

section
/-! PROOFS. The state after reset, the recognition point and the conclusion of a step (47_nonmem.md R407;
60_exceptions.md R466 to R472, R477, R478; 70_reset_and_hazards.md R521, R523). -/

namespace Sys2Proof.Machine

/-- Settles O10: at reset memory is empty, nothing is pending, the hold-off is zero and IR holds nothing. -/
theorem resetHasInvariant : Obligations.ResetHasInvariant :=
  { canonical := State.reset_mem_wf, placed := rfl, latched := BitVec.zero_and, counted := Nat.zero_le _,
    heldOdd := nofun }

/-! ### The levels that may be entered -/

/-- Neither a level nor a higher one is in service (60_exceptions.md R468). -/
theorem inService_shift_eq_zero_iff (v : BitVec 16) (l : Nat) :
    v >>> l = 0#16 ↔ ∀ k, l ≤ k → k < 16 → v.getLsbD k = false := by
  rw [BitVec.eq_of_getLsbD_eq_iff]
  simp only [BitVec.getLsbD_ushiftRight, BitVec.getLsbD_zero]
  constructor
  · intro h k hl hk
    rw [← Nat.add_sub_cancel' hl]
    exact h (k - l) (by omega)
  · intro h i _
    by_cases hi : l + i < 16
    · exact h (l + i) (by omega) hi
    · exact BitVec.getLsbD_of_ge v (l + i) (by omega)

/-- The model's test of a level is the spec's (60_exceptions.md R468). -/
theorem State.candidate_iff_eligible (s : State) (l : Nat) : s.candidate l = true ↔ s.eligible l := by
  rw [State.candidate, Bool.and_eq_true, Bool.and_eq_true, beq_iff_eq, inService_shift_eq_zero_iff, State.eligible]
  by_cases hl : l < 16
  · rw [State.allowed_getLsbD s hl, and_assoc, and_iff_right hl]
  · simp [BitVec.getLsbD_of_ge s.pending l (by omega), hl]

/-- The search from the top finds the highest eligible level (60_exceptions.md R468). -/
theorem State.highestBelow_of_highest {s : State} {l n : Nat} (hl : s.eligible l)
    (highest : ∀ k, l < k → ¬s.eligible k) (hn : l < n) : s.highestBelow n = some l := by
  induction n with
  | zero => omega
  | succ n ih =>
    rw [State.highestBelow]
    rcases Nat.lt_succ_iff_lt_or_eq.1 hn with below | rfl
    · rw [if_neg (mt (s.candidate_iff_eligible n).1 (highest n below))]
      exact ih below
    · rw [if_pos ((s.candidate_iff_eligible l).2 hl)]

/-- Where no level is eligible it finds none. -/
theorem State.highestBelow_of_none {s : State} (none : ∀ k, ¬s.eligible k) (n : Nat) : s.highestBelow n = .none := by
  induction n with
  | zero => rfl
  | succ n ih => rw [State.highestBelow, if_neg (mt (s.candidate_iff_eligible n).1 (none n)), ih]

/-! ### The recognition point -/

/-- The recognition point at the end of a hold-off, with interrupts enabled, enters the level found (R468, R472). -/
theorem State.recognise_enters {s : State} {l : Nat} (ended : s.holdoff ≤ 1) (enabled : s.srBit 15 = true)
    (found : s.highestBelow 16 = some l) : s.recognise = ({ s with holdoff := 0 } : State).enterInterrupt l := by
  have counted : s.setHoldoff (s.holdoff - 1) = { s with holdoff := 0 } := by
    rw [Nat.sub_eq_zero_of_le ended]
    rfl
  have found' : ({ s with holdoff := 0 } : State).highestBelow 16 = some l := found
  unfold State.recognise
  rw [counted, if_pos ⟨rfl, enabled⟩, found']

/-- Where the hold-off goes on, interrupts are disabled or no level is found, it only counts (R468, R472). -/
theorem State.recognise_counts {s : State}
    (h : 2 ≤ s.holdoff ∨ s.srBit 15 = false ∨ s.highestBelow 16 = none) :
    s.recognise = .ok { s with holdoff := s.holdoff - 1 } := by
  refine State.recognise_ok.2 (.inr ⟨fun ⟨ended, enabled, found⟩ => ?_, rfl⟩)
  rcases h with holds | disabled | noLevel
  · omega
  · exact Bool.false_ne_true (disabled.symm.trans enabled)
  · rw [noLevel] at found
    cases found

/-- The recognition point, in the words of the spec (60_exceptions.md R468). -/
theorem State.recognise_spec (s : State) :
    (∀ l, s.holdoff ≤ 1 → s.srBit 15 = true → s.eligible l → (∀ k, l < k → ¬s.eligible k) →
      s.recognise = ({ s with holdoff := 0 } : State).enterInterrupt l) ∧
    ((2 ≤ s.holdoff ∨ s.srBit 15 = false ∨ ∀ k, ¬s.eligible k) →
      s.recognise = .ok { s with holdoff := s.holdoff - 1 }) :=
  ⟨fun _ ended enabled hl highest =>
      State.recognise_enters ended enabled (State.highestBelow_of_highest hl highest hl.1),
    fun h => State.recognise_counts (h.imp_right (.imp_right fun none => State.highestBelow_of_none none 16))⟩

/-! ### The conclusion of a step -/

theorem step_halted {s : State} (h : s.halted = true) : step s = finish s.conclude := if_pos h

/-- Settles O8: with nothing arriving and the I/O unit's writes disabled, a conclusion is a recognition point with
program interrupts disabled. -/
theorem haltedAndQuietSteps : Obligations.HaltedAndQuietSteps := by
  unfold Obligations.HaltedAndQuietSteps
  refine fun s => ⟨step_halted, fun noArrival ioOff disabled => ?_⟩
  rw [State.conclude, State.environment_nil noArrival, State.flushIo_off ioOff,
    State.recognise_counts (.inr (.inl disabled))]

/-- Settles O57: a conclusion is the recognition point in the state after the environment. -/
theorem recognitionTakesTheHighest : Obligations.RecognitionTakesTheHighest := by
  unfold Obligations.RecognitionTakesTheHighest
  exact fun s => ⟨s.recognise_spec.1, s.recognise_spec.2, s.environment.recognise_spec⟩

end Sys2Proof.Machine
end

section
/-! PROOFS. Entry to a level and the return from it (60_exceptions.md R469, R471, R475). -/

namespace Sys2Proof.Machine

/-- The I/O unit's turns leave a fullword that it does not ask to write. -/
theorem State.Turned.word_eq {s t : State} {a : Addr} (h : s.Turned t) (even : isOdd a = false)
    (apart : ∀ w ∈ s.ioWrites, w.addr ≠ a) : t.mem.word a = s.mem.word a := by
  obtain ⟨ws, horder, _, hmem, _⟩ := h.order
  rw [hmem, State.ioWrites_word s even fun w hw => apart w (horder ▸ List.mem_append_left _ hw)]

/-- What is left of the requests after turns was asked for before them. -/
theorem State.Turned.ioWrites_subset {s t : State} (h : s.Turned t) : t.ioWrites ⊆ s.ioWrites := by
  obtain ⟨ws, horder, _⟩ := h.order
  exact horder ▸ List.subset_append_right ws _

/-- Where entry answers, its state is that of O56, and the return location can be read (60_exceptions.md R471, R481). -/
theorem State.enterInterrupt_leaves {s t : State} {l : Fin 16} (hm : s.mem.wf = true)
    (h : s.enterInterrupt l = .ok t) : s.readable32 (s.cfg.returnAt.get l) = true ∧
      ∃ m' w n, t = { s.ioTurn with
        mem := m', pc := s.cfg.transferAt.get l, pending := s.pending &&& ~~~(1#16 <<< l.val),
        inService := s.inService ||| (1#16 <<< l.val), holdoff := s.cfg.intHoldoff, halted := false, irHeld := none,
        draws := n } ∧
      m'.word (s.cfg.returnAt.get l) = w ∧ w.extractLsb' 0 18 = s.pc := by
  obtain ⟨present, present', u, stores, _⟩ := State.enterInterrupt_ok.1 h
  rw [State.transferLoc_fin] at present present'
  rw [State.returnLoc_fin] at stores
  obtain ⟨even, back, back', _⟩ := State.storeReturn_ok.1 stores
  have readable : s.readable32 (s.cfg.returnAt.get l) = true := by
    rw [State.readable32, even, back, back']
    rfl
  obtain ⟨_, _, _, enters⟩ := interruptEntry s l hm
  obtain ⟨m', w, n, runs, ⟨word, _⟩, link⟩ := enters present present' readable
  rw [h] at runs
  exact ⟨readable, m', w, n, Except.ok.inj runs, word, link⟩

/-- Settles O58: the turn before RTA's read leaves the word at RETURN(L) alone, and RTA takes the level's bit away. -/
theorem entryThenReturn : Obligations.EntryThenReturn := by
  unfold Obligations.EntryThenReturn
  intro s t l m16 hm back apart h
  obtain ⟨readable, m', w, n, ht, word, link⟩ := State.enterInterrupt_leaves hm h
  have cfg_eq : t.cfg = s.cfg := by rw [ht]; exact s.ioTurn_cfg
  have asked : t.ioWrites ⊆ s.ioWrites := by rw [ht]; exact s.ioTurn_turned.ioWrites_subset
  have mem_eq : t.mem = m' := by rw [ht]
  have service : t.inService = withBit s.inService l true := by rw [ht]; rfl
  have even : isOdd (s.cfg.returnAt.get l) = false := by
    simp only [State.readable32, Bool.and_eq_true, Bool.not_eq_true'] at readable
    exact readable.1.1
  have direct : noDesignator (t.longRef true (t.longIndex 0 0) false false false m16) =
      .ok (⟨s.cfg.returnAt.get l, false, false⟩, t) := by
    rw [back]
    exact noDesignator_ok.2 ⟨t.longRef_plain true false m16, rfl, rfl⟩
  obtain ⟨v, runs, bits⟩ := returnAddress_completes direct
    (by simpa only [State.readable32, State.isPresent, cfg_eq] using readable)
  refine ⟨_, runs, ?pc, fun k => ?bit, ?registers⟩
  case pc =>
    dsimp only
    rw [t.ioTurn_turned.word_eq even fun x hx => apart x (asked hx), mem_eq, word, link]
  case bit =>
    rw [bits, cfg_eq, service]
    by_cases hk : k = l
    · simp [hk]
    · rw [withBit_getLsbD_ne fun e => hk (Fin.ext e)]
  case registers =>
    dsimp only
    rw [t.ioTurn_regA, t.ioTurn_regB, t.ioTurn_xrf, t.ioTurn_sr, t.ioTurn_mr, ht]
    exact ⟨s.ioTurn_regA, s.ioTurn_regB, s.ioTurn_xrf, s.ioTurn_sr, s.ioTurn_mr⟩

end Sys2Proof.Machine
end

section
/-! PROOFS. Input and output (48_io.md R431 to R437; 60_exceptions.md R483). -/

namespace Sys2Proof.Machine

/-- Device codes 16 and 17 turn the level 14 request off, the others nothing (60_exceptions.md R483). -/
theorem State.panelServed_eq (s : State) (dc : BitVec 6) :
    s.panelServed dc = { s with pending := s.pendingAfter dc } := by
  unfold State.panelServed State.pendingAfter
  split <;> rfl

/-- The word that a device drives (R431). -/
theorem State.busWord_of_cons {s : State} {v : Word32} {vs : List Word32} (h : s.busIn = v :: vs) : s.busWord = v := by
  rw [State.busWord, h, List.headD_cons]

theorem State.devIn_mem (s : State) (dc : BitVec 6) (c k : Bool) : (s.devIn dc c k).mem = s.mem := rfl

/-- The I/O unit's turn does not look at the channel. -/
theorem State.storeTurn_devIn (s : State) (dc : BitVec 6) (c k half : Bool) (a : Addr) :
    (s.devIn dc c k).storeTurn half a = (s.storeTurn half a).devIn dc c k := by
  rw [State.storeTurn_with (s := s) (t := s.devIn dc c k) rfl rfl rfl rfl rfl rfl]
  conv => rhs; rw [s.storeTurn_memoryOnly half a]
  rfl

section
variable {s t : State} {r : Ref} {i : Bool} {m16 : BitVec 16}
  (hr : t.longRef false 0 i false false m16 = .ok (r, s))
include hr

theorem State.ioAddr_of_ref (hi : r.imm = false) : t.ioAddr i m16 = .ok (r.addr, s) := by
  rw [State.ioAddr, bind_of_ok _ hr]
  exact if_neg (by simp [hi])

/-- A last pointer word with M = 1 stops the instruction (R432). -/
theorem State.ioAddr_immediate (hi : r.imm = true) : t.ioAddr i m16 = .error .immediateOnIo := by
  rw [State.ioAddr, bind_of_ok _ hr]
  exact if_pos hi

variable (c k : Bool) (dc : BitVec 6)

theorem dom_immediate (hi : r.imm = true) : execDom c dc i k m16 t = .fault .immediateOnIo :=
  congrArg finish (bind_error _ (State.ioAddr_immediate hr hi))

theorem dim_immediate (hi : r.imm = true) : execDim c dc i k m16 t = .fault .immediateOnIo :=
  congrArg finish (bind_error _ (State.ioAddr_immediate hr hi))

variable (hi : r.imm = false)
include hi

/-- DOM offers the word that it reads (R435). -/
theorem dom_completes (hl : s.readable32 r.addr = true) : execDom c dc i k m16 t = .next { s.ioTurn with
    oar := r.addr, ioLog := s.ioLog ++ [.out dc c k (s.ioTurn.mem.word r.addr)], pending := s.pendingAfter dc,
    pc := s.pc + 2 } := by
  rw [execDom, bind_of_ok _ (State.ioAddr_of_ref hr hi)]
  dsimp only
  rw [bind_of_ok _ (State.load32_of_readable hl)]
  dsimp only [finish]
  rw [State.panelServed_eq, s.ioTurn_turned.frame]
  rfl

/-- DIM stores the word on the bus, in the state of the store's turn (R436). -/
theorem dim_completes (hm : s.mem.wf = true) (hw : s.writable32 r.addr = true) :
    ∃ m' n, execDim c dc i k m16 t = .next { s.storeTurn false r.addr with
        mem := m', oar := r.addr, busIn := s.busIn.tail, ioLog := s.ioLog ++ [.inp dc c k t.busWord],
        pending := s.pendingAfter dc, pc := s.pc + 2, draws := n } ∧
      storedWord s.ioTurn.mem m' r.addr t.busWord := by
  have bus_eq : t.busWord = s.busWord := by
    rw [(State.longRef_reads hr).frame]
    rfl
  have stores : ((s.setOar r.addr).devIn dc c k).store32 r.addr s.busWord =
      .ok ((((s.storeTurn false r.addr).setOar r.addr).devIn dc c k).setMem
        (s.ioTurn.mem.putWord r.addr s.busWord)) := by
    rw [State.store32_of_writable (s := (s.setOar r.addr).devIn dc c k) _ hw, ← State.storeTurn_mem _ false r.addr,
      State.storeTurn_devIn, State.storeTurn_setOar, State.devIn_mem, State.setOar_mem, State.storeTurn_mem]
  refine ⟨s.ioTurn.mem.putWord r.addr s.busWord, s.draws + 1, ?_,
    bus_eq ▸ storedWord_putWord _ _ _ ((State.ioTurn_mem s).1 hm) (State.isOdd_of_writable32 hw)⟩
  rw [execDim, bind_of_ok _ (State.ioAddr_of_ref hr hi)]
  dsimp only
  rw [bus_eq, bind_of_ok _ stores]
  dsimp only [finish]
  have frame := s.storeTurn_memoryOnly false r.addr
  generalize s.storeTurn false r.addr = u at frame
  rw [State.panelServed_eq, frame]
  rfl

end

/-- Settles O53: the transfer, then the end of the control panel request; DIM's store is that of a store's turn. -/
theorem inputOutputCompletes : Obligations.InputOutputCompletes := by
  unfold Obligations.InputOutputCompletes
  intro s c k i dc m16
  refine ⟨?doa, ?dia, fun t r hr hi => ⟨dom_completes hr c k dc hi, fun hm hw => ?dim⟩,
    fun t r hr hi => ⟨dom_immediate hr c k dc hi, dim_immediate hr c k dc hi⟩⟩
  case doa => exact congrArg (fun u : State => Host.Outcome.next (u.advance 1)) (State.panelServed_eq _ dc)
  case dia =>
    refine ⟨s.busWord, s.draws + 1, ?_, fun v vs => State.busWord_of_cons⟩
    exact congrArg (fun u : State => Host.Outcome.next (u.advance 1)) (State.panelServed_eq _ dc)
  case dim =>
    obtain ⟨m', n, runs, stored⟩ := dim_completes hr c k dc hi hm hw
    have bus_eq : s.busIn = t.busIn := by rw [(State.longRef_reads hr).frame]
    exact ⟨m', _, n, runs, stored, fun v vs driven => State.busWord_of_cons (bus_eq ▸ driven)⟩

end Sys2Proof.Machine
end

section
/-! PROOFS. The conversions between floating point and fixed point numbers (47_nonmem.md R410, R411; 92_eei_decisions.md
D31). -/

namespace Sys2Proof.Machine

/-! ### The input of CFX -/

theorem Dyadic.abs_toRat (x : Dyadic) : |x.toRat| = x.mant.natAbs * 2 ^ x.exp := by
  rw [Dyadic.toRat, abs_mul, abs_of_pos (show (0 : ℚ) < 2 ^ x.exp by positivity), Nat.cast_natAbs, Int.cast_abs]

/-- The lower bound of CFX's input, tested without fractions (R410). -/
theorem aboveMinimum_iff (c : ℚ) (x : Dyadic) : aboveMinimum c x = true ↔ c < |x.toRat| := by
  have power : (2 : ℚ) ^ x.exp = 2 ^ x.exp.toNat / 2 ^ (-x.exp).toNat := by
    rw [← zpow_natCast, ← zpow_natCast, ← zpow_sub₀ (by norm_num), Int.toNat_sub_toNat_neg]
  rw [aboveMinimum, decide_eq_true_iff, Dyadic.abs_toRat, power, ← mul_div_assoc]
  conv => rhs; rw [← Rat.num_div_den c]
  rw [div_lt_div_iff₀ (by exact_mod_cast c.den_pos) (by positivity), ← Int.cast_lt (R := ℚ)]
  push_cast
  rw [Nat.cast_natAbs, Int.cast_abs]

/-- The upper bound, in the unit of the smaller exponent (R410). -/
theorem belowMaximum_iff (x : Dyadic) : belowMaximum x = true ↔ |x.toRat| < 2 ^ 31 := by
  have aligned : ∀ {a e : Int}, e ≤ a → (2 : ℚ) ^ a = 2 ^ (a - e).toNat * 2 ^ e := by
    intro a e h
    rw [← zpow_natCast, ← zpow_add₀ (by norm_num), Int.toNat_of_nonneg (by omega), sub_add_cancel]
  have bound := aligned (min_le_left 31 x.exp)
  rw [belowMaximum, decide_eq_true_iff, Dyadic.abs_toRat, aligned (min_le_right 31 x.exp), ← mul_assoc,
    show (2 : ℚ) ^ 31 = 2 ^ (31 : Int) from rfl, bound, mul_lt_mul_iff_left₀ (by positivity)]
  exact_mod_cast Iff.rfl

theorem State.cfxInRange_iff (s : State) : s.cfxInRange = true ↔ normalized64 (s.regA ++ s.regB) = true ∧
    s.cfg.cfxMin < |fval64 (s.regA ++ s.regB)| ∧ |fval64 (s.regA ++ s.regB)| < 2 ^ 31 := by
  rw [State.cfxInRange, Bool.and_eq_true, Bool.and_eq_true, aboveMinimum_iff, belowMaximum_iff, toRat_value64,
    and_assoc]
  rfl

/-! ### The result of CFX -/

/-- The value that CFX makes an integer of (R410). -/
theorem Dyadic.toRat_shifted (x : Dyadic) : x.toRat * 2 ^ 32 = x.mant * (2 : ℚ) ^ (x.exp + 32) := by
  rw [Dyadic.toRat, zpow_add₀ (by norm_num), mul_assoc]
  rfl

theorem Dyadic.toRat_shifted_whole {x : Dyadic} (h : 0 ≤ x.exp + 32) :
    x.toRat * 2 ^ 32 = (x.mant * 2 ^ (x.exp + 32).toNat : Int) := by
  push_cast
  rw [Dyadic.toRat_shifted, ← zpow_natCast, Int.toNat_of_nonneg h]

theorem Dyadic.toRat_shifted_fraction {x : Dyadic} (h : x.exp + 32 < 0) :
    x.toRat * 2 ^ 32 = (x.mant : ℚ) / (2 ^ (-(x.exp + 32)).toNat : Nat) := by
  push_cast
  rw [Dyadic.toRat_shifted, ← zpow_natCast, Int.toNat_of_nonneg (by omega), zpow_neg, div_inv_eq_mul]

/-- CFX answers the floor or the ceiling (R410, D31). -/
theorem fixedOf_eq_floor_or_ceil (x : Dyadic) (up : Bool) :
    fixedOf x up = ⌊x.toRat * 2 ^ 32⌋ ∨ fixedOf x up = ⌈x.toRat * 2 ^ 32⌉ := by
  unfold fixedOf
  dsimp only
  split
  case isTrue whole =>
    rw [Dyadic.toRat_shifted_whole whole, Int.floor_intCast]
    exact .inl rfl
  case isFalse negative =>
    have value := Dyadic.toRat_shifted_fraction (not_le.1 negative)
    have floor : ⌊x.toRat * 2 ^ 32⌋ = x.mant / 2 ^ (-(x.exp + 32)).toNat := by
      rw [value, Rat.floor_intCast_div_natCast]
      push_cast
      rfl
    split
    case isFalse => exact .inl floor.symm
    case isTrue inexact =>
      refine .inr (Eq.symm ?_)
      rw [← floor, Int.ceil_eq_floor_add_one_iff_notMem]
      rintro ⟨k, hk⟩
      refine inexact.1 (Int.emod_eq_zero_of_dvd ⟨k, ?_⟩)
      rw [value, eq_div_iff (by positivity), mul_comm] at hk
      exact_mod_cast hk.symm

/-- A mantissa of 48 bits leaves no fraction above 2^47, so that rounding up stays in 64 bits. -/
theorem Dyadic.shifted_le {x : Dyadic} (hm : x.mant ≤ 2 ^ 47) (hx : x.toRat < 2 ^ 31) :
    x.toRat * 2 ^ 32 ≤ (2 ^ 63 - 1 : Int) := by
  rcases le_or_gt 0 (x.exp + 32) with whole | negative
  · have bound : x.toRat * 2 ^ 32 < 2 ^ 63 := by linarith
    rw [Dyadic.toRat_shifted_whole whole] at bound ⊢
    exact Int.cast_le.2 (Int.le_sub_one_of_lt (by exact_mod_cast bound))
  · have unit : (2 : ℚ) ^ (x.exp + 32) ≤ 1 := zpow_le_one_of_nonpos₀ (by norm_num) negative.le
    have unit_pos : (0 : ℚ) < 2 ^ (x.exp + 32) := by positivity
    have mant : (x.mant : ℚ) ≤ 2 ^ 47 := by exact_mod_cast hm
    rw [Dyadic.toRat_shifted]
    push_cast
    nlinarith

/-- The result of CFX fits (A,B) (R410). -/
theorem toInt_ofInt_fixedOf {x : Dyadic} (up : Bool) (hm : x.mant ≤ 2 ^ 47) (hx : |x.toRat| < 2 ^ 31) :
    (BitVec.ofInt 64 (fixedOf x up)).toInt = fixedOf x up := by
  obtain ⟨lower, upper⟩ := abs_lt.1 hx
  have floor : -2 ^ 63 ≤ ⌊x.toRat * 2 ^ 32⌋ := Int.le_floor.2 (by push_cast; linarith)
  have ceil : ⌈x.toRat * 2 ^ 32⌉ ≤ 2 ^ 63 - 1 := Int.ceil_le.2 (Dyadic.shifted_le hm upper)
  have order := Int.floor_le_ceil (x.toRat * 2 ^ 32)
  have between : ⌊x.toRat * 2 ^ 32⌋ ≤ fixedOf x up ∧ fixedOf x up ≤ ⌈x.toRat * 2 ^ 32⌉ := by
    rcases fixedOf_eq_floor_or_ceil x up with h | h <;> omega
  exact BitVec.toInt_ofInt_eq_self (by decide) (by omega) (by omega)

theorem mant64_le (d : BitVec 64) : mant64 d ≤ 2 ^ 47 := BitVec.toInt_lt.le

/-! ### Each instruction -/

theorem execCfx_completes (s : State) : ∃ (d : BitVec 64) (n : Nat), execCfx s = .next { s with
      regA := d.extractLsb' 32 32, regB := d.extractLsb' 0 32, pc := s.pc + 1, draws := n } ∧
    (s.cfxInRange = true →
      d.toInt = ⌊fval64 (s.regA ++ s.regB) * 2 ^ 32⌋ ∨ d.toInt = ⌈fval64 (s.regA ++ s.regB) * 2 ^ 32⌉) := by
  unfold execCfx
  cases range : s.cfxInRange with
  | true =>
    obtain ⟨_, _, below⟩ := s.cfxInRange_iff.1 range
    refine ⟨_, s.draws, rfl, fun _ => ?_⟩
    rw [← toRat_value64] at below ⊢
    rw [State.regAB, toInt_ofInt_fixedOf _ (mant64_le _) below]
    exact fixedOf_eq_floor_or_ceil _ _
  | false =>
    refine ⟨s.drawWord ++ Config.draw (s.draws + 1), s.draws + 2, ?_, nofun⟩
    rw [BitVec.extractLsb'_append_eq_left, BitVec.extractLsb'_append_eq_right]
    rfl

theorem toRat_fixedValue (d : BitVec 64) : (fixedValue d).toRat = d.toInt / 2 ^ 32 := rfl

theorem execCxf_completes (s : State) : ∃ (d : BitVec 64) (n : Nat), execCxf s = .next { s with
      regA := d.extractLsb' 32 32, regB := d.extractLsb' 0 32, pc := s.pc + 1, draws := n } ∧
    rounds64 s.zero56 ((s.regA ++ s.regB).toInt / 2 ^ 32) d := by
  obtain ⟨d, n, result, rounds⟩ := s.setDouble_round56 (fixedValue s.regAB) (Config.roundUp .cxf s.regAB 0)
  refine ⟨d, n, ?_, toRat_fixedValue s.regAB ▸ rounds⟩
  rw [execCxf, result]
  rfl

/-- Settles O52: `fixedOf` is the floor or the ceiling and fits; CXF rounds as the floating point instructions do. -/
theorem conversionsComplete : Obligations.ConversionsComplete := by
  unfold Obligations.ConversionsComplete
  intro s
  obtain ⟨d, n, runs, result⟩ := execCfx_completes s
  exact ⟨⟨d, n, runs, fun normal above below => result (s.cfxInRange_iff.2 ⟨normal, above, below⟩)⟩,
    execCxf_completes s⟩

end Sys2Proof.Machine
end

section
/-! PROOFS. Block transfers that nothing disturbs, between ranges that do not overlap (49_block.md R450 to R454;
20_memory.md R82). -/

namespace Sys2Proof.Machine

/-! ### What a transfer leaves -/

/-- The second halfword of one of the `n` words that follow the word at `a`. -/
def rightHalfIn (a : Addr) (n : Nat) (b : Addr) : Prop := ∃ k, k < n ∧ b = a + BitVec.ofNat 18 (2 * (k + 1)) + 1

/-- What IR holds is noted where one of the `n` words after `a` is stored (20_memory.md R82). -/
def Held.noteWords (m : Memory) (a : Addr) (n : Nat) (h : Held) : Held :=
  if ∃ k, k < n ∧ h.addr = a + BitVec.ofNat 18 (2 * (k + 1)) + 1 then ⟨h.addr, h.past ++ [m.half h.addr]⟩ else h

theorem Held.noteWords_of_in {m : Memory} {a : Addr} {n : Nat} {h : Held} (hin : rightHalfIn a n h.addr) :
    h.noteWords m a n = h.remember m :=
  if_pos hin

theorem Held.noteWords_of_out {m : Memory} {a : Addr} {n : Nat} {h : Held} (hout : ¬rightHalfIn a n h.addr) :
    h.noteWords m a n = h :=
  if_neg hout

/-- `t` is `s` after the `n` words that follow the word at `p` have gone, masked with A, to those after `q`, the I/O
unit asking for nothing (49_block.md R451 to R453). -/
structure State.Transferred (s t : State) (p q : Addr) (n : Nat) : Prop where
  only : s.MemoryOnly t
  quiet : t.ioWrites = []
  words : ∀ k, k < n → t.mem.word (q + BitVec.ofNat 18 (2 * (k + 1))) =
    s.mem.word (p + BitVec.ofNat 18 (2 * (k + 1))) &&& s.regA
  outside : sameOutside s.mem t.mem (2 * (q.toNat + 2)) (4 * n)
  held : t.irHeld = s.irHeld.map (Held.noteWords s.mem q n)

/-! ### Places -/

/-- In a range that does not wrap, the words stand one after the other. -/
theorem toNat_blockWord {a : Addr} {k n : Nat} (fits : a.toNat + 2 * n + 1 < 2 ^ 18) (hk : k < n) :
    (a + BitVec.ofNat 18 (2 * (k + 1))).toNat = a.toNat + 2 * (k + 1) ∧
      (a + BitVec.ofNat 18 (2 * (k + 1)) + 1).toNat = a.toNat + 2 * (k + 1) + 1 := by
  have word : (a + BitVec.ofNat 18 (2 * (k + 1))).toNat = a.toNat + 2 * (k + 1) := toNat_add_even (by omega)
  refine ⟨word, ?_⟩
  rw [BitVec.toNat_add, word, show (1 : Addr).toNat = 1 from rfl, Nat.mod_eq_of_lt (by omega)]

theorem rightHalfIn_iff {a : Addr} {n : Nat} (fits : a.toNat + 2 * n + 1 < 2 ^ 18) (b : Addr) :
    rightHalfIn a n b ↔ ∃ k, k < n ∧ b.toNat = a.toNat + 2 * (k + 1) + 1 := by
  refine exists_congr fun k => and_congr_right fun hk => ?_
  rw [← (toNat_blockWord fits hk).2, BitVec.toNat_inj]

theorem Memory.half_of_sameOutside {m m' : Memory} {lo n : Nat} (h : sameOutside m m' lo n) {a : Addr}
    (apart : 2 * a.toNat + 2 ≤ lo ∨ lo + n ≤ 2 * a.toNat) : m'.half a = m.half a := by
  rw [Memory.half, Memory.half, h _ (by omega), h _ (by omega)]

/-! ### One word, and one word before the others -/

/-- One word that may be read and written moves where nothing is asked of the I/O unit. -/
theorem State.transferred_one {s : State} {p q : Addr} (hm : s.mem.wf = true) (hio : s.ioWrites = [])
    (fits : q.toNat + 3 < 2 ^ 18)
    (hr : s.readable32 (p + 2) = true) (hw : s.writable32 (q + 2) = true) :
    ∃ w s1 t, s.load32 (p + 2) = .ok (w, s1) ∧ s1.store32 (q + 2) (w &&& s.regA) = .ok t ∧ t.mem.wf = true ∧
      s.Transferred t p q 1 := by
  obtain ⟨mem1, held1, io1⟩ := s.ioTurn_turned.quiet hio
  obtain ⟨mem2, held2, io2⟩ := s.ioTurn.ioTurn_turned.quiet io1
  rw [← s.ioTurn_turned.writable32_eq] at hw
  have stores := State.store32_of_writable (s.ioTurn.mem.word (p + 2) &&& s.regA) hw
  have only : s.MemoryOnly ((s.ioTurn.storeTurn false (q + 2)).setMem
      (s.ioTurn.ioTurn.mem.putWord (q + 2) (s.ioTurn.mem.word (p + 2) &&& s.regA))) := by
    have first := s.ioTurn_turned.memoryOnly
    have second := (State.store32_stores stores).memoryOnly
    unfold State.MemoryOnly at *
    rw [second, first]
  rw [mem2, mem1] at stores only
  have canonical := Memory.wf_putWord s.mem (q + 2) (s.mem.word (p + 2) &&& s.regA) hm
  obtain ⟨word, outside⟩ :=
    storedWord_putWord s.mem (q + 2) (s.mem.word (p + 2) &&& s.regA) hm (State.isOdd_of_writable32 hw)
  have place : (q + 2).toNat = q.toNat + 2 := toNat_add_even (k := 1) (by omega)
  refine ⟨_, _, _, mem1 ▸ State.load32_of_readable hr, stores, canonical, only, io2, ?words, place ▸ outside, ?held⟩
  case words =>
    intro k hk
    obtain rfl : k = 0 := by omega
    exact word
  case held =>
    show s.ioTurn.ioTurn.irHeld.map _ = _
    rw [held2, held1, mem2, mem1]
    congr 1
    funext h
    unfold Held.noteWords
    simp only [Nat.lt_one_iff, exists_eq_left]
    rfl

section
variable {s u t : State} {p q : Addr} {n : Nat} (first : s.Transferred u p q 1)
  (fits : q.toNat + 2 * (n + 1) + 1 < 2 ^ 18)
include first fits

/-- What is noted of the first word and then of the others is noted of all: the first store leaves the others' places as
they were. -/
theorem State.Transferred.noteWords_cons (h : Held) :
    (h.noteWords s.mem q 1).noteWords u.mem (q + 2) n = h.noteWords s.mem q (n + 1) := by
  have place : (q + 2).toNat = q.toNat + 2 := toNat_add_even (k := 1) (by omega)
  have inFirst := rightHalfIn_iff (a := q) (n := 1) (by omega) h.addr
  have inRest := rightHalfIn_iff (a := q + 2) (n := n) (by omega) h.addr
  have inAll := rightHalfIn_iff fits h.addr
  by_cases h1 : rightHalfIn q 1 h.addr
  · obtain ⟨k, hk, place1⟩ := inFirst.1 h1
    rw [Held.noteWords_of_in h1, Held.noteWords_of_in (inAll.2 ⟨k, by omega, place1⟩)]
    refine Held.noteWords_of_out fun h2 => ?_
    obtain ⟨j, hj, place2⟩ := inRest.1 h2
    omega
  · rw [Held.noteWords_of_out h1]
    by_cases h2 : rightHalfIn (q + 2) n h.addr
    · obtain ⟨k, hk, place2⟩ := inRest.1 h2
      rw [Held.noteWords_of_in h2, Held.noteWords_of_in (inAll.2 ⟨k + 1, by omega, by omega⟩), Held.remember,
        Held.remember, Memory.half_of_sameOutside first.outside (by omega)]
    · rw [Held.noteWords_of_out h2, Held.noteWords_of_out]
      rintro hall
      obtain ⟨k, hk, place3⟩ := inAll.1 hall
      cases k with
      | zero => exact h1 (inFirst.2 ⟨0, by omega, place3⟩)
      | succ k => exact h2 (inRest.2 ⟨k, by omega, by omega⟩)

/-- A word, and then the others, none of which the first one covers. -/
theorem State.Transferred.cons (rest : u.Transferred t (p + 2) (q + 2) n) (pfits : p.toNat + 2 * (n + 1) + 1 < 2 ^ 18)
    (apart : p.toNat + 2 * (n + 1) ≤ q.toNat ∨ q.toNat + 2 * (n + 1) ≤ p.toNat) : s.Transferred t p q (n + 1) := by
  have place : (q + 2).toNat = q.toNat + 2 := toNat_add_even (k := 1) (by omega)
  have source : (p + 2).toNat = p.toNat + 2 := toNat_add_even (k := 1) (by omega)
  have regA_eq : u.regA = s.regA := by rw [first.only]
  refine ⟨?only, rest.quiet, fun k hk => ?words, fun k hk => ?outside, ?held⟩
  case only =>
    have h1 := first.only
    have h2 := rest.only
    unfold State.MemoryOnly at *
    rw [h2, h1]
  case words =>
    cases k with
    | zero =>
      obtain ⟨high, low⟩ := toNat_blockWord (a := q) (k := 0) fits (by omega)
      rw [← first.words 0 (by omega), Memory.word, Memory.word,
        Memory.half_of_sameOutside rest.outside (by omega), Memory.half_of_sameOutside rest.outside (by omega)]
    | succ k =>
      obtain ⟨high, low⟩ := toNat_blockWord (a := p) (k := k + 1) pfits (by omega)
      rw [← add_two_add, rest.words k (by omega), regA_eq, add_two_add, Memory.word, Memory.word,
        Memory.half_of_sameOutside first.outside (by omega), Memory.half_of_sameOutside first.outside (by omega)]
  case outside => rw [rest.outside k (by omega), first.outside k (by omega)]
  case held =>
    rw [rest.held, first.held, Option.map_map]
    exact congrArg (Option.map · s.irHeld) (funext (first.noteWords_cons fits))

end

/-! ### The whole transfer -/

/-- Where the words of a transfer come from, given the core and the fast address. -/
def blockSource (toFast : Bool) (c f : Addr) : Addr := if toFast then c else f

/-- Where they go. -/
def blockTarget (toFast : Bool) (c f : Addr) : Addr := if toFast then f else c

/-- What a transfer of `n` words needs to be undisturbed (49_block.md R452 to R454). -/
structure State.Transferable (s : State) (toFast : Bool) (c f : Addr) (n : Nat) : Prop where
  canonical : s.mem.wf = true
  quiet : s.ioWrites = []
  sourceFits : (blockSource toFast c f).toNat + 2 * n + 1 < 2 ^ 18
  targetFits : (blockTarget toFast c f).toNat + 2 * n + 1 < 2 ^ 18
  apart : (blockSource toFast c f).toNat + 2 * n ≤ (blockTarget toFast c f).toNat ∨
    (blockTarget toFast c f).toNat + 2 * n ≤ (blockSource toFast c f).toNat
  words : ∀ k, k < n → s.inFast (f + BitVec.ofNat 18 (2 * (k + 1))) = true ∧
    s.readable32 (blockSource toFast c f + BitVec.ofNat 18 (2 * (k + 1))) = true ∧
    s.writable32 (blockTarget toFast c f + BitVec.ofNat 18 (2 * (k + 1))) = true

theorem State.Transferred.none (s : State) (p q : Addr) (hio : s.ioWrites = []) : s.Transferred s p q 0 := by
  refine ⟨rfl, hio, nofun, fun _ _ => rfl, ?_⟩
  have unnoted : Held.noteWords s.mem q 0 = id := funext fun h => Held.noteWords_of_out (by simp [rightHalfIn])
  rw [unnoted, Option.map_id_apply]

/-- By induction on the number of words: one word moves, and the rest is a transfer from the state that it leaves. -/
theorem State.moves_transferred {toFast : Bool} {n : Nat} {s : State} {c f : Addr}
    (h : s.Transferable toFast c f n) :
    ∃ t, s.moves toFast c f n t ∧ s.Transferred t (blockSource toFast c f) (blockTarget toFast c f) n := by
  induction n generalizing s c f with
  | zero => exact ⟨s, rfl, .none s _ _ h.quiet⟩
  | succ n ih =>
    obtain ⟨canonical, quiet, sourceFits, targetFits, apart, words⟩ := h
    have source : blockSource toFast (c + 2) (f + 2) = blockSource toFast c f + 2 := by cases toFast <;> rfl
    have target : blockTarget toFast (c + 2) (f + 2) = blockTarget toFast c f + 2 := by cases toFast <;> rfl
    have source_place : (blockSource toFast c f + 2).toNat = (blockSource toFast c f).toNat + 2 :=
      toNat_add_even (k := 1) (by omega)
    have target_place : (blockTarget toFast c f + 2).toNat = (blockTarget toFast c f).toNat + 2 :=
      toNat_add_even (k := 1) (by omega)
    obtain ⟨fast, readable, writable⟩ := words 0 (by omega)
    obtain ⟨w, s1, u, loads, stores, canonical', first⟩ :=
      State.transferred_one canonical quiet (by omega) readable writable
    have cfg_eq : u.cfg = s.cfg := by rw [first.only]
    have next : u.Transferable toFast (c + 2) (f + 2) n := by
      refine ⟨canonical', first.quiet, by rw [source]; omega, by rw [target]; omega, by rw [source, target]; omega,
        fun k hk => ?_⟩
      rw [source, target, add_two_add, add_two_add, add_two_add]
      simpa only [State.inFast, State.readable32, State.writable32, State.writable16, State.isPresent,
        State.isProtected, cfg_eq] using words (k + 1) (by omega)
    obtain ⟨t, moves, rest⟩ := ih next
    rw [source, target] at rest
    exact ⟨t, ⟨fast, w, s1, u, (congrArg s.load32 source).trans loads,
      (congrArg (s1.store32 · _) target).trans stores, moves⟩,
      first.cons targetFits rest sourceFits apart⟩

/-- A whole transfer that nothing disturbs: B and XR0 go up by 2N, and the words have moved (R451 to R454). -/
theorem blockTransfer_undisturbed {toFast : Bool} {s : State} {n : Nat} {c f : Addr}
    (hc : s.regB.extractLsb' 0 18 = c) (hf : s.xr 0 = f) (h : s.Transferable toFast c f n) :
    ∃ m' l, blockTransfer toFast s n = .next { s.setXr 0 (f + BitVec.ofNat 18 (2 * n)) with
        mem := m', steals := l, irHeld := s.irHeld.map (Held.noteWords s.mem (blockTarget toFast c f) n),
        regB := s.regB + BitVec.ofNat 32 (2 * n), pc := s.pc + 1 } ∧
      (∀ k, k < n → m'.word (blockTarget toFast c f + BitVec.ofNat 18 (2 * (k + 1))) =
        s.mem.word (blockSource toFast c f + BitVec.ofNat 18 (2 * (k + 1))) &&& s.regA) ∧
      sameOutside s.mem m' (2 * ((blockTarget toFast c f).toNat + 2)) (4 * n) := by
  subst hc hf
  obtain ⟨t, moves, only, quiet, words, outside, held⟩ := State.moves_transferred h
  refine ⟨t.mem, t.steals, ?_, words, outside⟩
  have deferred : t.ioDeferred = s.ioDeferred := by
    rw [(List.append_eq_nil_iff.1 quiet).1, (List.append_eq_nil_iff.1 h.quiet).1]
  rw [blockTransfer_completes moves, only, held, deferred]
  rfl

/-- Of two ranges of words after even addresses that do not overlap, one ends where the other begins or before. -/
theorem apart_of_even {a b : Addr} {n : Nat} (ha : isOdd a = false) (hb : isOdd b = false)
    (h : a.toNat + 2 * n < b.toNat + 2 ∨ b.toNat + 2 * n < a.toNat + 2) :
    a.toNat + 2 * n ≤ b.toNat ∨ b.toNat + 2 * n ≤ a.toNat := by
  have even : ∀ {x : Addr}, isOdd x = false → x.toNat % 2 = 0 := fun hx => by
    simpa [isOdd, BitVec.getLsbD, Nat.testBit_zero] using hx
  have := even ha
  have := even hb
  omega

/-- Settles O54: each direction is one transfer, whose words move in ascending order, none of them over
another's source. -/
theorem blockTransfersComplete : Obligations.BlockTransfersComplete := by
  unfold Obligations.BlockTransfersComplete
  intro s x1 j
  dsimp only
  have mmf : exec (.mmf x1 j) s = blockTransfer true s (s.wordCount x1 j) := rfl
  have mfm : exec (.mfm x1 j) s = blockTransfer false s (s.wordCount x1 j) := rfl
  rw [mmf, mfm, ← s.wordCount_eq x1 j]
  generalize s.wordCount x1 j = n
  intro hm hio evenCore evenFast coreFits fastFits apart words
  refine ⟨fun writable => blockTransfer_undisturbed (toFast := true) rfl rfl ?toFast,
    fun writable => blockTransfer_undisturbed (toFast := false) rfl rfl ?toCore⟩
  case toFast =>
    refine ⟨hm, hio, coreFits, fastFits, apart_of_even evenCore evenFast apart, fun k hk => ?_⟩
    obtain ⟨fast, _, core⟩ := words k hk
    exact ⟨fast, core, writable k hk⟩
  case toCore =>
    refine ⟨hm, hio, fastFits, coreFits, apart_of_even evenFast evenCore apart.symm, fun k hk => ?_⟩
    obtain ⟨fast, readable, _⟩ := words k hk
    exact ⟨fast, readable, writable k hk⟩

end Sys2Proof.Machine
end
